-- ==== Sys2Proof/Word.lean ====
section
/-!
DEFINITION. The plain word types of the part: bytes of the drop link and of stage memory, words of the
register window, and the small index types of slots, stations, tags and pages.
-/

namespace Sys2Proof

/-- A byte of a frame or of a page. -/
abbrev Byte := BitVec 8

/-- A word of the register window (R168). -/
abbrev Word := BitVec 16

/-- The number of a slot of the Exchange Table, 0 to 31. -/
abbrev SlotNo := Fin 32

/-- An index into the 15 station records; index `a` stands for link address `a + 1` (R92). -/
abbrev StationNo := Fin 15

/-- A tag, 0 to 7 (R100). -/
abbrev Tag := Fin 8

/-- A page of stage memory, 0 to 255 (R126). -/
abbrev Page := Fin 256

/-- A sequence number of a DATA or ACK frame, counted modulo 8 (R28, R38). -/
abbrev Seq := BitVec 3

/-- The link address of a station record. -/
def addressOf (a : StationNo) : BitVec 4 := BitVec.ofNat 4 (a.val + 1)

/-- The station record a link address names; the head's address 0 names none. -/
def stationAt (n : Nat) : Option StationNo :=
  if h : 1 ≤ n ∧ n ≤ 15 then some ⟨n - 1, by omega⟩ else none

/-- `frames(count)`: the number of 64-byte pages that hold `count` bytes. -/
def frames (count : Nat) : Nat := (count + 63) / 64

end Sys2Proof
end

