-- ==== Sys2Proof/Config.lean ====
section
/-!
DEFINITION. The fixed figures of the part and the free values. A free value stands where the spec states no
value and the part goes on: it has no body, so nothing can be proved of it. Each is applied to
`State.freeCount`, a counter of the model's own, so that each use is a fresh value.
-/

namespace Sys2Proof.Config

/-- The word the ID register reads (section 10.2). -/
def idWord : Word := 0x7180#16

/-- The default REPLY_TIME in µs (R170). -/
def replyTimeDefault : Byte := 64

/-- The default RETRY_LIMIT (R170). -/
def retryLimitDefault : BitVec 3 := 3

/-- The default POLL_INTERVAL in ms (R170). -/
def pollIntervalDefault : Byte := 10

/-- The busy count at which an exchange ends BUSY_LIMIT (R4). -/
def busyLimit : Nat := 8

/-- The fairness counter value at which a level-0 slot is picked (R120). -/
def fairnessLimit : Nat := 4

/-- The miss count at which a station falls silent, where the count also stops (R94). -/
def missLimit : Nat := 3

/-- FREE VALUE (log entry 1). The station status recorded when an abort phase, an abort visit or a cleanup
wait is ended by a CLOSE that carries no status byte: R33, R142, R148 and R109 let a CLOSE of any length end
the slot, and state no status for one of length 0. -/
opaque closeWithoutStatus : Nat → Option Byte

/-- FREE VALUE (log entry 2). Whether the poll interval timer's expiry is taken before the deadline expiries
that fall on the same advance of the timebase: R87, R90 and R102 give both to the one advance and no order
between them. -/
opaque pollTimerFirst : Nat → Bool

end Sys2Proof.Config
end

