-- ==== Sys2Proof/Syntax.lean ====
section
/-!
DEFINITION. The commands of the part, one constructor for each row of spec/opcode_table.json, and the frame
fields that the receive rows carry. Nothing here has a meaning; exec gives it.
-/

namespace Sys2Proof

/-- The twelve frame kinds of section 2.2. -/
inductive FrameKind where
  | call | accept | refuse | data | ack | defer | parked | resume | close | abort | poll | reply
  deriving DecidableEq, Repr

/-- The fields of a frame besides its kind and its check value (R28). The length field is the number of
payload bytes. -/
structure FrameBody where
  address : BitVec 4
  tag     : Tag
  seq     : Seq
  turn    : Bool
  last    : Bool
  payload : List Byte
  deriving DecidableEq, Repr

/-- A frame as a receive row carries it: its fields, and whether its last check byte was received together with an expiry
of the reply timer, or the running-out of a reply slot, that was taken first (R36, R107; log entry 27). -/
structure Received extends FrameBody where
  withExpiry : Bool
  deriving DecidableEq, Repr

/-- The bytes that FRAME_DAMAGED carries, from the first header byte to the last check byte (R29), and whether the last
was received together with such an expiry. -/
structure ReceivedBytes where
  bytes      : List Byte
  withExpiry : Bool
  deriving DecidableEq, Repr

/-- A frame of the drop link (R28). -/
structure Frame where
  kind : FrameKind
  body : FrameBody
  deriving DecidableEq, Repr

/-- The five kinds that only the head sends (section 2.2). -/
inductive HeadOnlyKind where
  | call | resume | parked | abort | poll
  deriving DecidableEq, Repr

/-- A head-only kind as a frame kind. -/
def HeadOnlyKind.kind : HeadOnlyKind → FrameKind
  | .call => .call
  | .resume => .resume
  | .parked => .parked
  | .abort => .abort
  | .poll => .poll

/-- The commands and events of the part, in the order of spec/opcode_table.json. A host command takes its
arguments from ARG0 to ARG3 as they stand (R174), so it has no operand; a register write carries the 16-bit
word the host moves (R168); a receive row carries the frame's fields (R28). -/
inductive Instr where
  | claim
  | issue
  | abort
  | release
  | stationOn
  | stationOff
  | stationConfig
  | linkReset
  | pollNow
  | softReset
  | unknownCommandCode (code : Byte)
  | linkEnableWrite (word : Word)
  | pollAlwaysWrite (word : Word)
  | linkConfigWrite (second : Bool) (word : Word)
  | intEnableWrite (word : Word)
  | hostFaultClear (word : Word)
  | stageSlotWrite (word : Word)
  | stageOffsetWrite (word : Word)
  | stageDataRead
  | stageDataWrite (word : Word)
  | event0Read
  | eventPop (word : Word)
  | slotSelectWrite (word : Word)
  | slotView0Read
  | stationSelectWrite (word : Word)
  | stationView0Read
  | timebaseLoRead
  | registerWrite (offset : BitVec 7) (word : Word)
  | resetAssert
  | resetRelease (strap : BitVec 2)
  | timebaseAdvance
  | deadlineExpiry
  | pollIntervalExpiry
  | replyTimerExpiry
  | replySlotTimeout
  | linkResetBreakEnd
  | linkResetEnd
  | frameDamaged (bytes : ReceivedBytes)
  | acceptReceived (f : Received)
  | refuseReceived (f : Received)
  | deferReceived (f : Received)
  | closeReceived (f : Received)
  | ackReceived (f : Received)
  | dataReceived (f : Received)
  | replyReceived (f : Received)
  | headOnlyKindReceived (kind : HeadOnlyKind) (f : Received)
  | callSent
  | resumeSent
  | dataFrameSent
  | ackFrameSent
  | abortFrameSent
  | parkedSent
  | pollSent
  deriving DecidableEq, Repr

end Sys2Proof
end

