-- ==== Sys2Proof/Machine/State.lean ====
section
/-!
DEFINITION. The state of the part as plain data, block by block as section "Block overview" of
spec/00_scope.md names the blocks, with its value right after hardware reset.
-/

namespace Sys2Proof.Machine

/-- The operation of an exchange (R1, R2). -/
inductive Op where
  | read | write | control
  deriving DecidableEq, Repr

/-- Why an exchange is parked (R1). -/
inductive ParkReason where
  | station | pool
  deriving DecidableEq, Repr

/-- A pending status: the fatal causes of R23. -/
inductive Fatal where
  | aborted | parkExpired | protocol | linkError | stationLost
  deriving DecidableEq, Repr

/-- The twelve final statuses (section 1.5). -/
inductive FinalStatus where
  | ok | short | stationError | refused | busyLimit | linkError
  | noAnswer | protocol | aborted | parkExpired | stationLost | linkReset
  deriving DecidableEq, Repr

/-- The state of a slot that is not FREE, with the fields present only in that state (R1). A tag is present in
CONNECTED, PARKED, RECALLED and ABORTING; a retry count in CONNECTED, and in ABORTING while the slot is on the
link; a deadline in PARKED(STATION); a pending status from the first fatal cause; the completion fields in DONE. -/
inductive SlotState where
  | prepared
  | queued
  | connected (tag : Tag) (retry : Nat) (pending : Option Fatal)
  | parkedStation (tag : Tag) (deadline : BitVec 32)
  | parkedPool (tag : Tag)
  | recalled (tag : Tag) (reason : ParkReason)
  | aborting (tag : Tag) (pending : Fatal) (retry : Option Nat)
  | done (final : FinalStatus) (stationStatus : Option Byte) (unread : Bool) (result : List Byte)
  deriving DecidableEq, Repr

/-- A slot record that is not FREE (R1). `params` holds the 8 parameter bytes of a CONTROL exchange and nothing
for a READ or WRITE; `chain` is the page chain in offset order, empty for CONTROL. -/
structure Exchange where
  op          : Op
  station     : StationNo
  urgent      : Bool
  unitAddress : BitVec 32
  count       : Nat
  doneCount   : Nat
  busyCount   : Nat
  chain       : List Page
  params      : List Byte
  st          : SlotState
  deriving DecidableEq, Repr

/-- The four station states (section 5.2). -/
inductive StationState where
  | unknown | online | silent | offline
  deriving DecidableEq, Repr

/-- A station record (R92). -/
structure Station where
  state     : StationState
  depth     : Nat
  creditMax : Nat
  parkLimit : Word
  tagMap    : Vector (Option SlotNo) 8
  missCount : Nat
  backoff   : Bool
  attention : Bool
  deriving DecidableEq, Repr

/-- A station record after hardware reset (R111). -/
def Station.atReset : Station where
  state     := .unknown
  depth     := 1
  creditMax := 2
  parkLimit := 1000
  tagMap    := Vector.replicate 8 none
  missCount := 0
  backoff   := false
  attention := false

/-- Stage memory's bytes: (address, byte) pairs at strictly rising addresses, none equal to `memDefault`. The
byte `o` of page `p` stands at address `64 * p + o` (R126). -/
abbrev Memory := List Host.Cell

/-- What a byte of stage memory that no cell lists reads as. No rule lets the host or the link see such a byte
before a claim or a fill has written its page (R128, R129, R141). DESIGN CHOICE, log entry 3. -/
def memDefault : Byte := 0

/-- Stage Memory: the free list with its top first (R127), the reservation list with its oldest page first
(R130), and the bytes of the pages. Page chains stand in the slot records. -/
structure StageMem where
  free     : List Page
  reserved : List Page
  mem      : Memory
  deriving DecidableEq, Repr

/-- The Link Arbiter (R112, R120) with the poll state it holds (section 5.5). Each list has its head first. -/
structure Arbiter where
  level1        : List SlotNo
  level0        : List SlotNo
  abortList     : List SlotNo
  poolList      : List SlotNo
  recallList    : List SlotNo
  fairness      : Nat
  pollTimer     : Nat
  pollDue       : Bool
  pollRequested : Bool
  deriving DecidableEq, Repr

/-- The phase of a connection (R43). -/
inductive Phase where
  | opening | sending | awaiting | closing | abortSent
  deriving DecidableEq, Repr

/-- The connection record (R43). Three fields follow rules outside R43: `retryLimit` is the RETRY_LIMIT taken at
the grant (R170), `resumed` tells a RESUME from a CALL (R18, R50), and `discarding` says that a frame of the
present station burst has been discarded (R40). -/
structure Connection where
  slot          : SlotNo
  phase         : Phase
  base          : Nat
  oldest        : Seq
  nextSend      : Seq
  nextExpected  : Seq
  burst         : Nat
  stationCredit : Option Nat
  dataEnded     : Bool
  progress      : Nat
  abortSent     : Bool
  retryLimit    : Nat
  resumed       : Bool
  discarding    : Bool
  deriving DecidableEq, Repr

/-- An entry of the cleanup list (R108): bound to an ABORTING slot, or to none. -/
structure CleanupEntry where
  station : StationNo
  tag     : Tag
  slot    : Option SlotNo
  deriving DecidableEq, Repr

/-- Where a poll window stands: POLL being sent, a reply slot open, or the cleanup running (R105, R109). -/
inductive PollPhase where
  | sending | listening | cleaning
  deriving DecidableEq, Repr

/-- A poll window. `mask` is fixed at the grant (R105); `left` holds the stations whose reply slots have not
ended, the open one first; `slotTime` is the REPLY_TIME read when the open slot was opened; `cleanup` is the
cleanup list, in `cleaning` with the entry being served at its head (R108, R109). -/
structure PollWindow where
  phase    : PollPhase
  mask     : List StationNo
  left     : List StationNo
  slotTime : Byte
  cleanup  : List CleanupEntry
  deriving DecidableEq, Repr

/-- The link operation the Link Engine runs (R44, R153). `parking` is the end of a connection in which PARKED is
being sent: the connection record is gone, and the operation ends with the frame (R71, R72, log entry 26). -/
inductive LinkOp where
  | idle
  | exchange (c : Connection)
  | parking
  | poll (w : PollWindow)
  | abortVisit (slot : SlotNo) (retryLimit : Nat)
  | resetBreak
  | resetQuiet
  deriving DecidableEq, Repr

/-- The turn holder (R35). -/
inductive Turn where
  | nobody
  | head
  | station (a : StationNo)
  | replySlot (a : StationNo)
  deriving DecidableEq, Repr

/-- The Link Engine: the running operation, the turn holder, the reply timer (the REPLY_TIME its running period
was started with, or stopped), and the frame the head is sending. `lateOpen` says that the frame being sent follows
the expiry of the reply timer or of a reply slot, and that no station frame received together with that expiry has been
taken yet (R36, R107; log entry 27). -/
structure LinkEngine where
  op         : LinkOp
  turn       : Turn
  replyTimer : Option Byte
  sending    : Option Frame
  lateOpen   : Bool
  deriving DecidableEq, Repr

/-- The Park Monitor: the timebase (R87) and the deadline list (R88); each deadline stands in its slot record. -/
structure ParkMonitor where
  timebase  : BitVec 32
  deadlines : List SlotNo
  deriving DecidableEq, Repr

/-- An event source (R157). -/
inductive Source where
  | slot (n : SlotNo)
  | station (a : StationNo)
  | link
  deriving DecidableEq, Repr

/-- The kinds of event record (R157). -/
inductive EventKind where
  | completion | online | silent | attention | ready | fault
  deriving DecidableEq, Repr

/-- The causes of a link fault (R159). -/
inductive LinkFault where
  | crc | stray | orphan
  deriving DecidableEq, Repr

/-- The status or code of a record (R157): absent, a final status, a fault cause or an attention code. -/
inductive Detail where
  | absent
  | status (f : FinalStatus)
  | cause (c : LinkFault)
  | code (b : Byte)
  deriving DecidableEq, Repr

/-- An event record (R157). The also-seen set is the seven marks that EVENT2 carries (section 11.4): from bit 0,
ONLINE, SILENT, ATTENTION, READY, CRC, STRAY, ORPHAN. -/
structure EventRecord where
  source        : Source
  kind          : EventKind
  detail        : Detail
  value         : Option Nat
  stationStatus : Option Byte
  repeats       : Nat
  alsoSeen      : BitVec 7
  timestamp     : Word
  deriving DecidableEq, Repr

/-- The Event Queue: the records, oldest first (R162), and the snapshot of the event words (R163), `none` when
it is empty or discarded. A source's pending mark is that its record is in the queue. -/
structure EventQueue where
  records  : List EventRecord
  snapshot : Option (Vector Word 4)
  deriving DecidableEq, Repr

/-- The causes of HOST_FAULT (R139). -/
inductive StageFault where
  | state | range | align
  deriving DecidableEq, Repr

/-- The result codes (R175). -/
inductive ResultCode where
  | ok | already | noSlot | noPages | badState | badParam | eventUnread | stationOffline | badCommand
  deriving DecidableEq, Repr

/-- The Host Port: the registers of the window that no other block holds. `hostFault` is the HOST_FAULT mark with
its cause and count (R139); `slotView` and `stationView` are the view snapshots (R180, R181); `readData` is the
word the last host read returned on HD15 to HD0; `held` says that RESET_N is asserted (R178); `rateStrap` is
RATE1 and RATE0 as sampled (section 10.6). -/
structure HostPort where
  linkEnable    : Bool
  pollAlways    : Bool
  replyTime     : Byte
  retryLimit    : BitVec 3
  pollInterval  : Byte
  intSlot       : Bool
  intStation    : Bool
  intLink       : Bool
  intHostFault  : Bool
  hostFault     : Option (StageFault × Nat)
  args          : Vector Word 4
  resultCode    : ResultCode
  resultValue   : Byte
  slotSelect    : Byte
  slotView      : Option (Vector Word 8)
  stationSelect : Byte
  stationView   : Option (Vector Word 6)
  stageSlot     : SlotNo
  stageOffset   : Word
  timebaseLatch : Word
  readData      : Word
  held          : Bool
  rateStrap     : BitVec 2
  deriving DecidableEq, Repr

/-- The whole state. A slot record is `none` while the slot is FREE, for a FREE slot has no field but its state
(R1, R15). `freeCount` numbers the uses of free values, and `pending` is the queue of waiting commands, first in
first out; both are the model's own. -/
structure State where
  host      : HostPort
  slots     : Vector (Option Exchange) 32
  stage     : StageMem
  stations  : Vector Station 15
  arb       : Arbiter
  link      : LinkEngine
  park      : ParkMonitor
  events    : EventQueue
  freeCount : Nat
  pending   : List Instr
  deriving DecidableEq, Repr

/-- A fault of the machine. No constructor: the spec names no condition in which the part stops, and every
command and event answers a next state. Safe. -/
inductive Fault where
  deriving DecidableEq, Repr

/-- A refusal by the model. -/
inductive Refusal where
  /-- Raised by an arm of exec for a row that has no meaning yet; no arm raises it now. Safe. -/
  | notModelled (mnemonic : String)
  deriving DecidableEq, Repr

/-- The free list after a hardware or soft reset: page 0 on top (R127). -/
def freeListAtReset : List Page := List.finRange 256

/-- The Host Port after hardware reset (R179). `readData` and `rateStrap` are log entries 4 and 5. -/
def HostPort.atReset : HostPort where
  linkEnable    := false
  pollAlways    := false
  replyTime     := Config.replyTimeDefault
  retryLimit    := Config.retryLimitDefault
  pollInterval  := Config.pollIntervalDefault
  intSlot       := false
  intStation    := false
  intLink       := false
  intHostFault  := false
  hostFault     := none
  args          := Vector.replicate 4 0
  resultCode    := .ok
  resultValue   := 0
  slotSelect    := 0
  slotView      := none
  stationSelect := 0
  stationView   := none
  stageSlot     := 0
  stageOffset   := 0
  timebaseLatch := 0
  readData      := 0
  held          := false
  rateStrap     := 0

/-- The Link Arbiter after hardware reset (R111, R125). -/
def Arbiter.atReset : Arbiter where
  level1        := []
  level0        := []
  abortList     := []
  poolList      := []
  recallList    := []
  fairness      := 0
  pollTimer     := Config.pollIntervalDefault.toNat
  pollDue       := false
  pollRequested := false

/-- The state right after RESET_N is released: every block at its hardware reset values, and the link reset that
follows at the start of its break (R151, R178, R179). -/
def State.reset : State where
  host      := HostPort.atReset
  slots     := Vector.replicate 32 none
  stage     := { free := freeListAtReset, reserved := [], mem := [] }
  stations  := Vector.replicate 15 Station.atReset
  arb       := Arbiter.atReset
  link      := { op := .resetBreak, turn := .nobody, replyTimer := none, sending := none, lateOpen := false }
  park      := { timebase := 0, deadlines := [] }
  events    := { records := [], snapshot := none }
  freeCount := 0
  pending   := []

end Sys2Proof.Machine
end

