-- ==== Sys2Proof/Machine/Frames.lean ====
section
/-!
DEFINITION. The frames of the drop link as bytes (section 11.1, R183, R184): kind codes, the check value, the
bytes of a frame, the judgement of received bytes (R29), which frames return the turn (R34), and the fields of a
station's REPLY (R32).
-/

namespace Sys2Proof.Machine

/-- The kind codes of section 11.1. -/
def kindCode : FrameKind → BitVec 4
  | .call => 1
  | .accept => 2
  | .refuse => 3
  | .data => 4
  | .ack => 5
  | .defer => 6
  | .parked => 7
  | .resume => 8
  | .close => 9
  | .abort => 10
  | .poll => 11
  | .reply => 12

/-- The kind a code names; codes 0, 13, 14 and 15 name none. -/
def kindOfCode (c : BitVec 4) : Option FrameKind :=
  match c.toNat with
  | 1 => some .call
  | 2 => some .accept
  | 3 => some .refuse
  | 4 => some .data
  | 5 => some .ack
  | 6 => some .defer
  | 7 => some .parked
  | 8 => some .resume
  | 9 => some .close
  | 10 => some .abort
  | 11 => some .poll
  | 12 => some .reply
  | _ => none

/-- Shifts the check register `n` times to the left, with polynomial 0x1021 (R183). -/
def crcShift : Nat → BitVec 16 → BitVec 16
  | 0, r => r
  | n + 1, r => crcShift n (if r.msb then (r <<< 1) ^^^ 0x1021#16 else r <<< 1)

/-- Takes one byte into the check register, most significant bit first (R183). -/
def crcByte (r : BitVec 16) (b : Byte) : BitVec 16 :=
  crcShift 8 (r ^^^ (b ++ 0#8))

/-- The check value over the header and payload bytes (R28, R183). -/
def checkValue (bytes : List Byte) : BitVec 16 :=
  bytes.foldl crcByte 0xFFFF#16

/-- The two check bytes, high byte first (R183). -/
def checkBytes (bytes : List Byte) : List Byte :=
  [(checkValue bytes).extractLsb' 8 8, (checkValue bytes).extractLsb' 0 8]

/-- A two-byte field, least significant byte first (R183). -/
def le16 (n : Nat) : List Byte := [BitVec.ofNat 8 n, BitVec.ofNat 8 (n / 256)]

/-- A four-byte field, least significant byte first (R183). -/
def le32 (v : BitVec 32) : List Byte :=
  [v.extractLsb' 0 8, v.extractLsb' 8 8, v.extractLsb' 16 8, v.extractLsb' 24 8]

/-- The header and payload bytes of a frame (section 11.1). -/
def frameContent (f : Frame) : List Byte :=
  (kindCode f.kind ++ f.body.address) ::
  (BitVec.ofNat 3 f.body.tag.val ++ f.body.seq ++ BitVec.ofBool f.body.turn ++ BitVec.ofBool f.body.last) ::
  BitVec.ofNat 8 f.body.payload.length :: f.body.payload

/-- All bytes of a frame in the order sent (section 11.1, R183). -/
def frameBytes (f : Frame) : List Byte :=
  frameContent f ++ checkBytes (frameContent f)

/-- The bits of a byte in the order they go on the line, least significant first (R183). -/
def lineBits (b : Byte) : List Bool :=
  (List.range 8).map fun i => b.getLsbD i

/-- What the Link Engine finds in a run of received bytes (R29). -/
inductive Judged where
  | incomplete
  | damaged (cause : LinkFault)
  | frame (f : Frame)
  deriving DecidableEq, Repr

/-- Judges received bytes (R29, R183). A length byte above 64 ends the frame after 66 further bytes and makes it
CRC, with no check value computed; a wrong check value makes it CRC whatever its kind; an unknown kind code makes
it STRAY. A run that is not exactly one frame has not come to its last check byte. -/
def judgeBytes : List Byte → Judged
  | b0 :: b1 :: b2 :: rest =>
    if 64 < b2.toNat then
      if rest.length = 66 then .damaged .crc else .incomplete
    else if rest.length = b2.toNat + 2 then
      if rest.drop b2.toNat = checkBytes (b0 :: b1 :: b2 :: rest.take b2.toNat) then
        match kindOfCode (b0.extractLsb' 4 4) with
        | some k =>
          .frame { kind := k
                   body := { address := b0.extractLsb' 0 4
                             tag := Fin.ofNat 8 (b1.extractLsb' 5 3).toNat
                             seq := b1.extractLsb' 2 3
                             turn := b1.getLsbD 1
                             last := b1.getLsbD 0
                             payload := rest.take b2.toNat } }
        | none => .damaged .stray
      else .damaged .crc
    else .incomplete
  | _ => .incomplete

/-- Whether a station's frame returns the turn (R34): every kind does, but DATA with TURN and LAST clear. -/
def returnsTurn (f : Frame) : Bool :=
  match f.kind with
  | .data => f.body.turn || f.body.last
  | _ => true

/-- A REPLY's fields (R32): the recall's tag byte and offset, and the attention code, each where present. -/
structure ReplyFields where
  recalls   : Option (Byte × Nat)
  attention : Option Byte
  deriving DecidableEq, Repr

/-- The value of a two-byte field. -/
def fieldOf16 (lo hi : Byte) : Nat := lo.toNat + 256 * hi.toNat

/-- Reads a REPLY payload; `none` is a malformed REPLY (R32, R33). Flag bits other than 0 and 1 are ignored. -/
def replyFields : List Byte → Option ReplyFields
  | [] => none
  | flags :: rest =>
    match flags.getLsbD 0, flags.getLsbD 1, rest with
    | false, false, [] => some { recalls := none, attention := none }
    | false, true, [code] => some { recalls := none, attention := some code }
    | true, false, [t, lo, hi] => some { recalls := some (t, fieldOf16 lo hi), attention := none }
    | true, true, [t, lo, hi, code] => some { recalls := some (t, fieldOf16 lo hi), attention := some code }
    | _, _, _ => none

/-- The code of an op in CALL and in CLAIM's argument (section 11.1). -/
def opCode : Op → Byte
  | .read => 1
  | .write => 2
  | .control => 3

/-- The parameter bytes that CALL and RESUME carry (R6, R31). -/
def carriedParams (x : Exchange) : List Byte :=
  match x.op with
  | .control => x.params.take x.count
  | _ => []

/-- A head frame with its meaningful fields, the others 0 or clear (R28, R184). -/
def headFrame (k : FrameKind) (address : BitVec 4) (tag : Tag) (seq : Seq) (turn last : Bool)
    (payload : List Byte) : Frame :=
  { kind := k, body := { address, tag, seq, turn, last, payload } }

/-- CALL (R31). -/
def callFrame (x : Exchange) (tag : Tag) : Frame :=
  headFrame .call (addressOf x.station) tag 0 true false
    (opCode x.op :: (le16 x.count ++ le32 x.unitAddress ++ carriedParams x))

/-- RESUME (R31). -/
def resumeFrame (x : Exchange) (tag : Tag) : Frame :=
  headFrame .resume (addressOf x.station) tag 0 true false (le16 x.doneCount ++ carriedParams x)

/-- The code of a park reason (section 11.1). -/
def parkReasonCode : ParkReason → Byte
  | .station => 1
  | .pool => 2

/-- PARKED (R31). -/
def parkedFrame (x : Exchange) (tag : Tag) (r : ParkReason) : Frame :=
  headFrame .parked (addressOf x.station) tag 0 false false (le16 x.doneCount ++ [parkReasonCode r])

/-- ABORT (R31). -/
def abortFrame (a : StationNo) (tag : Tag) : Frame :=
  headFrame .abort (addressOf a) tag 0 true false []

/-- The reply mask of POLL: bit `n` marks the station at address `n` (section 11.1). -/
def maskBits (mask : List StationNo) : Nat :=
  mask.foldl (fun m a => m ||| 2 ^ (a.val + 1)) 0

/-- POLL (R31). -/
def pollFrame (mask : List StationNo) : Frame :=
  headFrame .poll 0 0 0 true false (le16 (maskBits mask))

/-- ACK as the head sends it (R31). -/
def ackFrame (x : Exchange) (tag : Tag) (seq : Seq) (credit : Nat) : Frame :=
  headFrame .ack (addressOf x.station) tag seq true false [BitVec.ofNat 8 credit]

/-- The number of bytes frame `j` of a WRITE carries (R41). -/
def dataLength (count j : Nat) : Nat :=
  if j + 1 = frames count then count - 64 * (frames count - 1) else 64

end Sys2Proof.Machine
end

