-- ==== Sys2Proof/WellFormed.lean ====
section
/-!
DEFINITION. Which commands are well formed: those whose operands name what their row of spec/opcode_table.json
says they are. exec answers a next state on every command, well formed or not; a term that is not well formed is one
that belongs to another row.
-/

namespace Sys2Proof

/-- A frame's length field is at most 64 (R28, R29). -/
def FrameBody.wellFormed (f : FrameBody) : Bool := f.payload.length ≤ 64

/-- Whether received bytes are those of a damaged frame (R29). -/
def isDamaged (bytes : List Byte) : Bool :=
  match Machine.judgeBytes bytes with
  | .damaged _ => true
  | _ => false

/-- Whether a code of COMMAND names no command (section 11.2). -/
def isUnknownCode (code : Byte) : Bool := code.toNat == 0 || 11 ≤ code.toNat

/-- The addresses whose writes have rows of their own: CONTROL, LINK_CONFIG, INT_ENABLE, HOST_FAULT, COMMAND,
SLOT_SELECT, STATION_SELECT, the stage port and EVENT_POP (section 11.2). -/
def hasOwnRow (offset : BitVec 7) : Bool :=
  [0x01, 0x02, 0x03, 0x04, 0x08, 0x10, 0x18, 0x21, 0x28, 0x29, 0x2A, 0x34].contains offset.toNat

/-- Whether a command is well formed. -/
def Instr.wellFormed : Instr → Bool
  | .claim => true
  | .issue => true
  | .abort => true
  | .release => true
  | .stationOn => true
  | .stationOff => true
  | .stationConfig => true
  | .linkReset => true
  | .pollNow => true
  | .softReset => true
  | .unknownCommandCode code => isUnknownCode code
  | .linkEnableWrite _ => true
  | .pollAlwaysWrite _ => true
  | .linkConfigWrite _ _ => true
  | .intEnableWrite _ => true
  | .hostFaultClear word => word.getLsbD 2
  | .stageSlotWrite _ => true
  | .stageOffsetWrite _ => true
  | .stageDataRead => true
  | .stageDataWrite _ => true
  | .event0Read => true
  | .eventPop _ => true
  | .slotSelectWrite _ => true
  | .slotView0Read => true
  | .stationSelectWrite _ => true
  | .stationView0Read => true
  | .timebaseLoRead => true
  | .registerWrite offset _ => !hasOwnRow offset
  | .resetAssert => true
  | .resetRelease _ => true
  | .timebaseAdvance => true
  | .deadlineExpiry => true
  | .pollIntervalExpiry => true
  | .replyTimerExpiry => true
  | .replySlotTimeout => true
  | .linkResetBreakEnd => true
  | .linkResetEnd => true
  | .frameDamaged bytes => isDamaged bytes.bytes
  | .acceptReceived f => f.wellFormed
  | .refuseReceived f => f.wellFormed
  | .deferReceived f => f.wellFormed
  | .closeReceived f => f.wellFormed
  | .ackReceived f => f.wellFormed
  | .dataReceived f => f.wellFormed
  | .replyReceived f => f.wellFormed
  | .headOnlyKindReceived _ f => f.wellFormed
  | .callSent => true
  | .resumeSent => true
  | .dataFrameSent => true
  | .ackFrameSent => true
  | .abortFrameSent => true
  | .parkedSent => true
  | .pollSent => true

end Sys2Proof
end

