-- ==== Sys2Proof/Machine/Operands.lean ====
section
/-!
DEFINITION. The operands of commands and frames: the fields of ARG0 to ARG3 (sections 10.3 and 11.2), and the
payload fields of station frames (R32).
-/

namespace Sys2Proof.Machine

/-- ARG0 to ARG3. -/
def State.arg (s : State) (i : Fin 4) : Word := s.host.args[i]

/-- Bits 7 to 0 of ARG0: the slot or the station address a command names (section 11.2). -/
def State.argNumber (s : State) : Nat := (s.arg 0).toNat % 256

/-- The slot that ISSUE, ABORT or RELEASE names; above 31 it names none (R9). -/
def State.argSlot (s : State) : Option SlotNo :=
  if h : s.argNumber < 32 then some ⟨s.argNumber, h⟩ else none

/-- The station that a station command or CLAIM names; outside 1 to 15 it names none (section 5.3, R10). -/
def State.argStation (s : State) : Option StationNo := stationAt s.argNumber

/-- The op an op code names (section 11.2). -/
def opOfCode (c : Nat) : Option Op :=
  match c with
  | 1 => some .read
  | 2 => some .write
  | 3 => some .control
  | _ => none

/-- The op of CLAIM: bits 11 to 8 of ARG0. -/
def State.argOp (s : State) : Option Op := opOfCode ((s.arg 0).extractLsb' 8 4).toNat

/-- The priority of CLAIM: bits 13 and 12 of ARG0, 0 or 1 (R10). -/
def State.argUrgent (s : State) : Option Bool :=
  match ((s.arg 0).extractLsb' 12 2).toNat with
  | 0 => some false
  | 1 => some true
  | _ => none

/-- Whether a count is in range for an op (R10). -/
def countInRange (op : Op) (count : Nat) : Bool :=
  match op with
  | .control => count ≤ 8
  | _ => 1 ≤ count && count ≤ 4096

/-- The unit address of CLAIM: ARG2 and ARG3 are its low and high halves (R175). -/
def State.argUnitAddress (s : State) : BitVec 32 := s.arg 3 ++ s.arg 2

/-- The arguments of a CLAIM (R10). -/
structure ClaimArgs where
  op          : Op
  station     : StationNo
  urgent      : Bool
  count       : Nat
  unitAddress : BitVec 32
  deriving DecidableEq, Repr

/-- CLAIM's arguments when every one is in range; `none` is BAD_PARAM (R10). -/
def State.claimArgs (s : State) : Option ClaimArgs :=
  match s.argOp, s.argStation, s.argUrgent with
  | some op, some station, some urgent =>
    if countInRange op (s.arg 1).toNat then
      some { op, station, urgent, count := (s.arg 1).toNat, unitAddress := s.argUnitAddress }
    else none
  | _, _, _ => none

/-- Whether STATION_CONFIG's values are in range (R99). -/
def State.configInRange (s : State) : Bool :=
  1 ≤ (s.arg 1).toNat && (s.arg 1).toNat ≤ 8 && 1 ≤ (s.arg 2).toNat && (s.arg 2).toNat ≤ 4 &&
    1 ≤ (s.arg 3).toNat

/-- The one byte of an ACCEPT, ACK or REFUSE payload: credit or reason; any other length is malformed (R32). -/
def oneByte (f : FrameBody) : Option Nat :=
  match f.payload with
  | [b] => some b.toNat
  | _ => none

/-- The offset of a DEFER; any length but 2 is malformed (R32). -/
def deferOffset (f : FrameBody) : Option Nat :=
  match f.payload with
  | [lo, hi] => some (fieldOf16 lo hi)
  | _ => none

/-- Whether a CLOSE has a length permitted for an op: 1, or 1 to 9 for CONTROL (R32). -/
def closePermitted (op : Op) (f : FrameBody) : Bool :=
  match op with
  | .control => 1 ≤ f.payload.length && f.payload.length ≤ 9
  | _ => f.payload.length == 1

end Sys2Proof.Machine
end

