-- ==== Sys2Proof/Machine/Flags.lean ====
section
/-!
DEFINITION. What the host sees of the state: the codes of section 11.2 to 11.4, the STATUS fields (R172), the
view words (R180, R181), the event words (R163), the interrupt line (R166) and the transceiver enable.
-/

namespace Sys2Proof.Machine

/-- Final status codes (section 11.4). -/
def FinalStatus.code : FinalStatus → Nat
  | .ok => 1
  | .short => 2
  | .stationError => 3
  | .refused => 4
  | .busyLimit => 5
  | .linkError => 6
  | .noAnswer => 7
  | .protocol => 8
  | .aborted => 9
  | .parkExpired => 10
  | .stationLost => 11
  | .linkReset => 12

/-- A pending status as the final status it becomes (R23). -/
def Fatal.final : Fatal → FinalStatus
  | .aborted => .aborted
  | .parkExpired => .parkExpired
  | .protocol => .protocol
  | .linkError => .linkError
  | .stationLost => .stationLost

/-- Result codes (section 11.2). -/
def ResultCode.code : ResultCode → Nat
  | .ok => 0
  | .already => 1
  | .noSlot => 2
  | .noPages => 3
  | .badState => 4
  | .badParam => 5
  | .eventUnread => 6
  | .stationOffline => 7
  | .badCommand => 8

/-- HOST_FAULT causes (section 11.2). -/
def StageFault.code : StageFault → Nat
  | .state => 1
  | .range => 2
  | .align => 3

/-- Fault causes (section 11.4). -/
def LinkFault.code : LinkFault → Nat
  | .crc => 1
  | .stray => 2
  | .orphan => 3

/-- The also-seen mark of an occurrence (R161, section 11.4): a fault is marked by its cause. -/
def alsoSeenMark (k : EventKind) (d : Detail) : BitVec 7 :=
  match k, d with
  | .online, _ => 1
  | .silent, _ => 2
  | .attention, _ => 4
  | .ready, _ => 8
  | .fault, .cause .crc => 16
  | .fault, .cause .stray => 32
  | .fault, .cause .orphan => 64
  | _, _ => 0

/-- The link operation field of STATUS (R172). -/
def LinkOp.code : LinkOp → Nat
  | .idle => 0
  | .exchange _ => 1
  | .parking => 1
  | .poll _ => 2
  | .abortVisit _ _ => 3
  | .resetBreak => 4
  | .resetQuiet => 4

/-- Whether a link reset runs: STATUS reads RESETTING. -/
def LinkOp.isResetting : LinkOp → Bool
  | .resetBreak => true
  | .resetQuiet => true
  | _ => false

/-- The tag a slot holds (R1). -/
def SlotState.tag? : SlotState → Option Tag
  | .connected t _ _ => some t
  | .parkedStation t _ => some t
  | .parkedPool t => some t
  | .recalled t _ => some t
  | .aborting t _ _ => some t
  | _ => none

/-- Whether a slot is PARKED, for either reason. -/
def SlotState.isParked : SlotState → Bool
  | .parkedStation _ _ => true
  | .parkedPool _ => true
  | _ => false

/-- The number of free pages (R172). -/
def State.freePages (s : State) : Nat := s.stage.free.length

/-- The number of QUEUED slots, both levels together (R113, R172). -/
def State.queuedCount (s : State) : Nat := s.arb.level1.length + s.arb.level0.length

/-- The number of PARKED slots (R71, R172). -/
def State.parkedCount (s : State) : Nat :=
  s.slots.toList.countP fun x =>
    match x with
    | some e => e.st.isParked
    | none => false

/-- Whether the queue holds a record of a class (R166). -/
def State.hasSlotRecord (s : State) : Bool :=
  s.events.records.any fun r => match r.source with | .slot _ => true | _ => false
/-- Whether the queue holds a STATION record (R166). -/
def State.hasStationRecord (s : State) : Bool :=
  s.events.records.any fun r => match r.source with | .station _ => true | _ => false
/-- Whether the queue holds a LINK record (R166). -/
def State.hasLinkRecord (s : State) : Bool :=
  s.events.records.any fun r => match r.source with | .link => true | _ => false

/-- The interrupt line HINT_N is driven low (R166). The line carries no memory, so it is a function of the state;
while RESET_N is asserted it is not driven (R178). -/
def State.interruptAsserted (s : State) : Bool :=
  !s.host.held &&
    ((s.hasSlotRecord && s.host.intSlot) || (s.hasStationRecord && s.host.intStation) ||
     (s.hasLinkRecord && s.host.intLink) || (s.host.hostFault.isSome && s.host.intHostFault))

/-- The transceiver enable LTXEN: asserted while the head sends a frame or the line break (section 10.6, R153),
inactive while RESET_N is asserted (R178). -/
def State.transceiverEnabled (s : State) : Bool :=
  !s.host.held && (s.link.sending.isSome || s.link.op == .resetBreak)

/-- One bit as a number. -/
def bit (b : Bool) : Nat := if b then 1 else 0

/-- Op codes of SLOT_VIEW0, 0 for a FREE slot (section 11.3). -/
def Op.code : Op → Nat
  | .read => 1
  | .write => 2
  | .control => 3

/-- Slot state codes (section 11.3); FREE is 0. -/
def SlotState.code : SlotState → Nat
  | .prepared => 1
  | .queued => 2
  | .connected _ _ _ => 3
  | .parkedStation _ _ => 4
  | .parkedPool _ => 4
  | .recalled _ _ => 5
  | .aborting _ _ _ => 6
  | .done _ _ _ _ => 7

/-- Park reason codes of SLOT_VIEW0: 0 while absent (section 11.3). -/
def SlotState.parkReasonCode : SlotState → Nat
  | .parkedStation _ _ => 1
  | .parkedPool _ => 2
  | .recalled _ .station => 1
  | .recalled _ .pool => 2
  | _ => 0

/-- The retry count, 0 while absent (R5, R180). -/
def SlotState.retryShown : SlotState → Nat
  | .connected _ r _ => r
  | .aborting _ _ (some r) => r
  | _ => 0

/-- The pending status as a final status code, 0 while absent (section 11.3). -/
def SlotState.pendingCode : SlotState → Nat
  | .connected _ _ (some f) => f.final.code
  | .aborting _ f _ => f.final.code
  | _ => 0

/-- Phase codes (section 11.3). -/
def Phase.code : Phase → Nat
  | .opening => 1
  | .sending => 2
  | .awaiting => 3
  | .closing => 4
  | .abortSent => 5

/-- The phase shown for a slot: that of the connection while the slot is CONNECTED, else none (R180). -/
def State.phaseCode (s : State) (n : SlotNo) (x : Exchange) : Nat :=
  match s.link.op, x.st with
  | .exchange c, .connected _ _ _ => if c.slot = n then c.phase.code else 0
  | _, _ => 0

/-- SLOT_VIEW5 and SLOT_VIEW6: the deadline in PARKED(STATION), the completion fields in DONE, else 0. -/
def SlotState.lateWords : SlotState → Word × Word
  | .parkedStation _ d => (d.extractLsb' 0 16, d.extractLsb' 16 16)
  | .done f status _ result =>
    (BitVec.ofNat 16 (f.code + 16 * result.length + 256 * bit status.isSome),
     BitVec.ofNat 16 (status.getD 0).toNat)
  | _ => (0, 0)

/-- Whether event unread is set (R7). -/
def SlotState.unreadShown : SlotState → Bool
  | .done _ _ u _ => u
  | _ => false

/-- The eight view words of a slot record (R180, section 11.3). A FREE slot reads 0 in every word. -/
def State.slotViewWords (s : State) (n : SlotNo) : Vector Word 8 :=
  match s.slots[n] with
  | none => Vector.replicate 8 0
  | some x =>
    #v[BitVec.ofNat 16 (x.st.code + 8 * x.op.code + 32 * bit x.urgent + 64 * (x.station.val + 1) +
         1024 * (match x.st.tag? with | some t => t.val | none => 0) + 8192 * bit x.st.unreadShown +
         16384 * x.st.parkReasonCode),
       BitVec.ofNat 16 (x.count + 8192 * s.phaseCode n x),
       BitVec.ofNat 16 (x.doneCount + 8192 * x.st.retryShown),
       x.unitAddress.extractLsb' 0 16,
       x.unitAddress.extractLsb' 16 16,
       x.st.lateWords.1,
       x.st.lateWords.2,
       BitVec.ofNat 16 (x.busyCount + 16 * x.chain.length + 2048 * x.st.pendingCode)]

/-- Station state codes (section 11.3). -/
def StationState.code : StationState → Nat
  | .unknown => 0
  | .online => 1
  | .silent => 2
  | .offline => 3

/-- A tag map entry: bit 7 and the slot number when a slot is bound, else 0 (section 11.3). -/
def tagEntry (e : Option SlotNo) : Nat :=
  match e with
  | some n => 128 + n.val
  | none => 0

/-- Two tag map entries in one word. -/
def tagWord (st : Station) (lo hi : Tag) : Word :=
  BitVec.ofNat 16 (tagEntry st.tagMap[lo] + 256 * tagEntry st.tagMap[hi])

/-- The six view words of a station record (R181, section 11.3). -/
def Station.viewWords (st : Station) : Vector Word 6 :=
  #v[BitVec.ofNat 16 (st.state.code + 4 * st.depth + 64 * st.creditMax + 512 * st.missCount +
       2048 * bit st.backoff + 4096 * bit st.attention),
     st.parkLimit, tagWord st 0 1, tagWord st 2 3, tagWord st 4 5, tagWord st 6 7]

/-- The class code and source number of EVENT0 (section 11.4). -/
def Source.classAndNumber : Source → Nat × Nat
  | .slot n => (1, n.val)
  | .station a => (2, a.val + 1)
  | .link => (3, 0)

/-- Kind codes (section 11.4). -/
def EventKind.code : EventKind → Nat
  | .completion => 1
  | .online => 2
  | .silent => 3
  | .attention => 4
  | .ready => 5
  | .fault => 6

/-- The status or code byte of EVENT1, 0 when absent (section 11.4). -/
def Detail.byte : Detail → Nat
  | .absent => 0
  | .status f => f.code
  | .cause c => c.code
  | .code b => b.toNat

/-- EVENT2: the value of a SLOT record, else the repeat count and the also-seen set (section 11.4). -/
def EventRecord.word2 (r : EventRecord) : Word :=
  match r.source with
  | .slot _ => BitVec.ofNat 16 (r.value.getD 0)
  | _ => BitVec.ofNat 16 (r.repeats + 256 * r.alsoSeen.toNat)

/-- The four event words of a record (section 11.4). -/
def EventRecord.words (r : EventRecord) : Vector Word 4 :=
  #v[BitVec.ofNat 16 (r.source.classAndNumber.1 + 4 * r.source.classAndNumber.2 + 128 * r.kind.code +
       1024 * bit r.stationStatus.isSome),
     BitVec.ofNat 16 (r.detail.byte + 256 * (r.stationStatus.getD 0).toNat),
     r.word2,
     r.timestamp]

/-- STATUS, first, second and third word (R172, section 11.2). -/
def State.statusWord (s : State) (i : Fin 3) : Word :=
  match i with
  | 0 => BitVec.ofNat 16 (s.link.op.code + 8 * bit s.host.hostFault.isSome + 16 * s.events.records.length)
  | 1 => BitVec.ofNat 16 s.freePages
  | 2 => BitVec.ofNat 16 (s.queuedCount + 256 * s.parkedCount)

end Sys2Proof.Machine
end

