-- ==== Sys2Proof/Machine/Memory.lean ====
section
/-!
DEFINITION. The bytes of stage memory in one canonical form: addresses strictly rising and below 16,384, and no
cell equal to what an unlisted address reads as.
-/

namespace Sys2Proof.Machine

/-- The canonical form of stage memory. -/
abbrev Memory.wf (m : Memory) : Prop :=
  m.Pairwise (fun c d => c.1 < d.1) ∧ ∀ c ∈ m, c.2 ≠ memDefault ∧ c.1 < 16384

/-- The byte at an address. -/
def Memory.readByte : Memory → Nat → Byte
  | [], _ => memDefault
  | (a, b) :: m, k => if a = k then b else Memory.readByte m k

/-- Stores one byte and keeps the canonical form. -/
def Memory.writeByte : Memory → Nat → Byte → Memory
  | [], k, v => if v = memDefault then [] else [(k, v)]
  | (a, b) :: m, k, v =>
    if k < a then (if v = memDefault then (a, b) :: m else (k, v) :: (a, b) :: m)
    else if k = a then (if v = memDefault then m else (k, v) :: m)
    else (a, b) :: Memory.writeByte m k v

/-- Stores bytes at rising addresses. -/
def Memory.writeBytes : Memory → Nat → List Byte → Memory
  | m, _, [] => m
  | m, k, v :: vs => Memory.writeBytes (Memory.writeByte m k v) (k + 1) vs

/-- The address of byte `o` of page `p` (R126). -/
def pageAddress (p : Page) (o : Nat) : Nat := 64 * p.val + o

/-- The 64 bytes that fill a page from `bytes`: the rest of the page is set to 0 (R128, R129). -/
def pageImage (bytes : List Byte) : List Byte :=
  bytes.take 64 ++ List.replicate (64 - bytes.length) 0

/-- Fills a page from its first byte (R128, R129). -/
def Memory.fillPage (m : Memory) (p : Page) (bytes : List Byte) : Memory :=
  Memory.writeBytes m (pageAddress p 0) (pageImage bytes)

/-- The first `n` bytes of a page. -/
def Memory.pageBytes (m : Memory) (p : Page) (n : Nat) : List Byte :=
  (List.range n).map fun o => Memory.readByte m (pageAddress p o)

/-- The byte at offset `o` of a page chain: page `o / 64`, byte `o % 64` (R134). -/
def Memory.chainByte (m : Memory) (chain : List Page) (o : Nat) : Byte :=
  match chain[o / 64]? with
  | some p => Memory.readByte m (pageAddress p (o % 64))
  | none => memDefault

/-- Stores the byte at offset `o` of a page chain (R134). -/
def Memory.setChainByte (m : Memory) (chain : List Page) (o : Nat) (v : Byte) : Memory :=
  match chain[o / 64]? with
  | some p => Memory.writeByte m (pageAddress p (o % 64)) v
  | none => m

end Sys2Proof.Machine
end

