-- ==== Sys2Proof/Machine/Ops.lean ====
section
/-!
DEFINITION. The shared operations: one update per block, then pages, lists, tags, event records, link faults,
misses and presence, the entry into DONE, and what the head does with the link.
-/

namespace Sys2Proof.Machine

/-! ### One update per block -/

/-- Updates the Host Port. -/
def State.withHost (s : State) (f : HostPort → HostPort) : State := { s with host := f s.host }
/-- Updates Stage Memory. -/
def State.withStage (s : State) (f : StageMem → StageMem) : State := { s with stage := f s.stage }
/-- Updates the Link Arbiter. -/
def State.withArb (s : State) (f : Arbiter → Arbiter) : State := { s with arb := f s.arb }
/-- Updates the Link Engine. -/
def State.withLink (s : State) (f : LinkEngine → LinkEngine) : State := { s with link := f s.link }
/-- Updates the Park Monitor. -/
def State.withPark (s : State) (f : ParkMonitor → ParkMonitor) : State := { s with park := f s.park }
/-- Updates the Event Queue. -/
def State.withEvents (s : State) (f : EventQueue → EventQueue) : State := { s with events := f s.events }
/-- Updates one station record. -/
def State.withStation (s : State) (a : StationNo) (f : Station → Station) : State :=
  { s with stations := s.stations.set a (f s.stations[a]) }
/-- Replaces one slot record. -/
def State.setSlot (s : State) (n : SlotNo) (x : Option Exchange) : State :=
  { s with slots := s.slots.set n x }
/-- Counts one use of a free value. -/
def State.useFree (s : State) : State := { s with freeCount := s.freeCount + 1 }

/-! ### Host results -/

/-- RESULT takes a code and a value (R174). -/
def State.result (s : State) (code : ResultCode) (value : Nat) : State :=
  s.withHost fun h => { h with resultCode := code, resultValue := BitVec.ofNat 8 value }

/-- A stage port misuse (R139): the first sets the mark with its cause and count 0, a later one raises the count,
which stops at 255. -/
def State.misuse (s : State) (cause : StageFault) : State :=
  s.withHost fun h =>
    match h.hostFault with
    | none => { h with hostFault := some (cause, 0) }
    | some (first, n) => { h with hostFault := some (first, if n < 255 then n + 1 else n) }

/-! ### Events (R160, R161) -/

/-- The timestamp of a post: the low 16 bits of the timebase (R160). -/
def State.stamp (s : State) : Word := s.park.timebase.extractLsb' 0 16

/-- Posts a new record at the tail (R160). -/
def State.post (s : State) (r : EventRecord) : State :=
  s.withEvents fun e => { e with records := e.records ++ [r] }

/-- Folds an occurrence into a record (R161). -/
def EventRecord.fold (r : EventRecord) (k : EventKind) (d : Detail) : EventRecord :=
  { r with
    repeats := if r.repeats < 255 then r.repeats + 1 else r.repeats
    alsoSeen := r.alsoSeen ||| alsoSeenMark k d
    detail := if k = .attention then d else r.detail }

/-- Whether a source's pending mark is set: a record of it is in the queue (R157). -/
def State.hasRecord (s : State) (src : Source) : Bool := s.events.records.any fun r => r.source == src

/-- An occurrence at a station or at the link: posted as a new record, or folded into the one its source already
has (R160, R161). -/
def State.report (s : State) (src : Source) (k : EventKind) (d : Detail) : State :=
  if s.hasRecord src then
    s.withEvents fun e =>
      { e with records := e.records.map fun r => if r.source = src then r.fold k d else r }
  else
    s.post { source := src, kind := k, detail := d, value := none, stationStatus := none, repeats := 0,
             alsoSeen := 0, timestamp := s.stamp }

/-- Records a link fault (R29). -/
def State.linkFault (s : State) (c : LinkFault) : State := s.report .link .fault (.cause c)

/-- Passes on an attention report and sets the attention pending mark (R96). -/
def State.attention (s : State) (a : StationNo) (code : Byte) : State :=
  (s.report (.station a) .attention (.code code)).withStation a fun st => { st with attention := true }

/-! ### Station presence (R93, R94) -/

/-- A frame seen from a station (R93). -/
def State.stationSeen (s : State) (a : StationNo) : State :=
  match s.stations[a].state with
  | .unknown => s.withStation a fun st => { st with missCount := 0, state := .online }
  | .silent =>
    (s.withStation a fun st => { st with missCount := 0, state := .online }).report (.station a) .online .absent
  | _ => s.withStation a fun st => { st with missCount := 0 }

/-- A miss counted against a station (R94). -/
def State.miss (s : State) (a : StationNo) : State :=
  let counted := s.withStation a fun st =>
    { st with missCount := if st.missCount < Config.missLimit then st.missCount + 1 else st.missCount }
  if Config.missLimit ≤ s.stations[a].missCount + 1 then
    match s.stations[a].state with
    | .unknown | .online =>
      (counted.withStation a fun st => { st with state := .silent }).report (.station a) .silent .absent
    | _ => counted
  else counted

/-! ### Tags (R100, R101) -/

/-- The number of tags a station holds. -/
def Station.tagsHeld (st : Station) : Nat := st.tagMap.toList.countP Option.isSome

/-- The lowest tag that is free in a station's map (R100). -/
def Station.lowestFreeTag (st : Station) : Option Tag :=
  (List.finRange 8).find? fun t => st.tagMap[t].isNone

/-- Binds a tag to a slot, or frees it (R100, R101). -/
def State.setTag (s : State) (a : StationNo) (t : Tag) (e : Option SlotNo) : State :=
  s.withStation a fun st => { st with tagMap := st.tagMap.set t e }

/-- Frees the tag a slot holds, if it holds one (R101). -/
def State.freeTagOf (s : State) (x : Exchange) : State :=
  match x.st.tag? with
  | some t => s.setTag x.station t none
  | none => s

/-! ### Pages (R127 to R132) -/

/-- Gives up the reservation list: pages leave from its tail and are pushed one after another, so the oldest ends
on top (R131). -/
def StageMem.giveUp (g : StageMem) : StageMem :=
  { g with free := g.reserved ++ g.free, reserved := [] }

/-- Brings the reservation list to `c` pages (R130): takes from the top of the free list to the tail, or gives
back from the tail, newest first. -/
def StageMem.reserveTo (g : StageMem) (c : Nat) : StageMem :=
  if g.reserved.length < c then
    { g with
      free := g.free.drop (c - g.reserved.length)
      reserved := g.reserved ++ g.free.take (c - g.reserved.length) }
  else
    { g with free := g.reserved.drop c ++ g.free, reserved := g.reserved.take c }

/-- Returns a chain: pushed from its head to its tail, so its last page ends on top (R132). -/
def StageMem.returnChain (g : StageMem) (chain : List Page) : StageMem :=
  { g with free := chain.reverse ++ g.free }

/-- The pages a WRITE CLAIM takes from the top of the free list, each set to 0 (R128). -/
def StageMem.takeZeroed (g : StageMem) (k : Nat) : StageMem :=
  { g with
    free := g.free.drop k
    mem := (g.free.take k).foldl (fun m p => Memory.fillPage m p []) g.mem }

/-- Gives up the reservation list (R131). -/
def State.giveUpReserved (s : State) : State := s.withStage StageMem.giveUp

/-! ### Lists (R112) -/

/-- A slot leaves every list of the arbiter. -/
def Arbiter.without (g : Arbiter) (n : SlotNo) : Arbiter :=
  { g with
    level1 := g.level1.filter (· ≠ n)
    level0 := g.level0.filter (· ≠ n)
    abortList := g.abortList.filter (· ≠ n)
    poolList := g.poolList.filter (· ≠ n)
    recallList := g.recallList.filter (· ≠ n) }

/-- A slot leaves every list that holds it, the deadline list included (R25, R89). -/
def State.leaveLists (s : State) (n : SlotNo) : State :=
  (s.withArb (·.without n)).withPark fun p => { p with deadlines := p.deadlines.filter (· ≠ n) }

/-- A QUEUED slot joins the tail of its priority level (R12, R113). -/
def State.joinIssue (s : State) (n : SlotNo) (urgent : Bool) : State :=
  s.withArb fun g =>
    if urgent then { g with level1 := g.level1 ++ [n] } else { g with level0 := g.level0 ++ [n] }

/-- The slot joins the tail of the abort-visit list (R114). -/
def State.joinAbort (s : State) (n : SlotNo) : State :=
  s.withArb fun g => { g with abortList := g.abortList ++ [n] }

/-- The slot joins the tail of the pool-wait list (R115). -/
def State.joinPool (s : State) (n : SlotNo) : State :=
  s.withArb fun g => { g with poolList := g.poolList ++ [n] }

/-- The slot joins the tail of the recall list (R83). -/
def State.joinRecall (s : State) (n : SlotNo) : State :=
  s.withArb fun g => { g with recallList := g.recallList ++ [n] }

/-! ### Deadlines (R88) -/

/-- The remaining time of a slot's deadline: the deadline minus the timebase, modulo 2^32 (R88). -/
def State.remaining (s : State) (n : SlotNo) : Nat :=
  match s.slots[n] with
  | some x =>
    match x.st with
    | .parkedStation _ d => (d - s.park.timebase).toNat
    | _ => 0
  | none => 0

/-- Inserts a slot behind every entry whose remaining time is at most its own (R88). -/
def insertByRemaining (rem : SlotNo → Nat) (n : SlotNo) (own : Nat) : List SlotNo → List SlotNo
  | [] => [n]
  | m :: ms => if rem m ≤ own then m :: insertByRemaining rem n own ms else n :: m :: ms

/-- Arms a slot's deadline in the deadline list (R88). -/
def State.arm (s : State) (n : SlotNo) (own : Nat) : State :=
  s.withPark fun p => { p with deadlines := insertByRemaining s.remaining n own p.deadlines }

/-! ### Entry into DONE (R25) -/

/-- A cleanup entry bound to a slot that ends becomes unbound (R108). -/
def LinkOp.unbind (op : LinkOp) (n : SlotNo) : LinkOp :=
  match op with
  | .poll w =>
    .poll { w with cleanup := w.cleanup.map fun e => if e.slot = some n then { e with slot := none } else e }
  | _ => op

/-- The connected READ, whose reservations an entry into DONE returns (R25). -/
def Exchange.isConnectedRead (x : Exchange) : Bool :=
  match x.op, x.st with
  | .read, .connected _ _ _ => true
  | _, _ => false

/-- The completion record of a slot (R158). -/
def completionRecord (s : State) (n : SlotNo) (x : Exchange) (final : FinalStatus) (status : Option Byte) :
    EventRecord :=
  { source := .slot n, kind := .completion, detail := .status final, value := some x.doneCount,
    stationStatus := status, repeats := 0, alsoSeen := 0, timestamp := s.stamp }

/-- A slot enters DONE (R25): its tag and reservations are freed, it leaves its lists, the completion fields are
set with event unread, and its completion record joins the queue. Result bytes are kept for CONTROL only (R6). -/
def State.enterDone (s : State) (n : SlotNo) (final : FinalStatus) (status : Option Byte) (result : List Byte) :
    State :=
  match s.slots[n] with
  | none => s
  | some x =>
    let freed := s.freeTagOf x
    let given := if x.isConnectedRead then freed.giveUpReserved else freed
    let left := given.leaveLists n
    let kept := if x.op = .control then result else []
    let ended := left.setSlot n (some { x with st := .done final status true kept })
    (ended.withLink fun l => { l with op := l.op.unbind n }).post (completionRecord s n x final status)

/-- A slot that is off the link is condemned: it leaves its lists, enters ABORTING with its tag and the pending
status, and joins the tail of the abort-visit list (R13, R79, R90). -/
def State.condemn (s : State) (n : SlotNo) (x : Exchange) (tag : Tag) (f : Fatal) : State :=
  ((s.leaveLists n).setSlot n (some { x with st := .aborting tag f none })).joinAbort n

/-! ### The link -/

/-- The head starts to send a frame: it holds the turn, and no reply timer runs (R34, R36). -/
def State.send (s : State) (f : Frame) : State :=
  s.withLink fun l => { l with turn := .head, replyTimer := none, sending := some f, lateOpen := false }

/-- A frame that passes the turn has been sent: the station holds the turn, and the reply timer starts with
REPLY_TIME as it stands (R34, R36). -/
def State.passTurn (s : State) (a : StationNo) : State :=
  s.withLink fun l =>
    { l with turn := .station a, replyTimer := some s.host.replyTime, sending := none, lateOpen := false }

/-- A link operation ends and the link falls idle (R45, R149). -/
def State.endOp (s : State) : State :=
  s.withLink fun _ => { op := .idle, turn := .nobody, replyTimer := none, sending := none, lateOpen := false }

/-- Sets the running link operation. -/
def State.setOp (s : State) (op : LinkOp) : State := s.withLink fun l => { l with op := op }

/-- The expiry of the reply timer or of a reply slot has been taken with all that follows it. If the head has begun to
send, a station frame that was received together with the expiry may still be taken: its last check byte came before the
head drove its transmitter, it finds the turn with the head, and is stray (R36, R37, R58, R62, R107, R148; log entry
27). -/
def State.openLate (s : State) : State := s.withLink fun l => { l with lateOpen := l.sending.isSome }

/-- A damaged or stray frame: a link fault and nothing else (R29, R30). No second frame can have arrived together with
the last expiry. -/
def State.badFrame (s : State) (c : LinkFault) : State :=
  (s.withLink fun l => { l with lateOpen := false }).linkFault c

/-! ### Taking a host access or an event -/

/-- A host write, or an event inside the part: nothing is taken while RESET_N is asserted (R168, R178). -/
def State.taken (s : State) (f : State → State) : State := if s.host.held then s else f s

/-- A host read: the word returned stands on the data pins; while RESET_N is asserted it is 0 (R168). -/
def State.hostRead (s : State) (f : State → Word × State) : State :=
  if s.host.held then s.withHost fun h => { h with readData := 0 }
  else (f s).2.withHost fun h => { h with readData := (f s).1 }

end Sys2Proof.Machine
end

