-- ==== Sys2Proof/Machine/Arbiter.lean ====
section
/-!
DEFINITION. The Link Arbiter's choice (chapter 6): the candidates in rank order and the grant of each.
-/

namespace Sys2Proof.Machine

/-- The connection record at a grant (R44). RETRY_LIMIT is taken here and governs the operation (R170). -/
def newConnection (s : State) (n : SlotNo) (x : Exchange) (resumed : Bool) : Connection where
  slot          := n
  phase         := .opening
  base          := x.doneCount
  oldest        := 0
  nextSend      := 0
  nextExpected  := 0
  burst         := 0
  stationCredit := none
  dataEnded     := x.op == .read && x.doneCount == x.count
  progress      := x.doneCount
  abortSent     := false
  retryLimit    := s.host.retryLimit.toNat
  resumed       := resumed
  discarding    := false

/-- The frame that opens a connection: CALL or RESUME (R44, R85). -/
def openingFrame (resumed : Bool) (x : Exchange) (tag : Tag) : Frame :=
  if resumed then resumeFrame x tag else callFrame x tag

/-- A slot becomes CONNECTED with its tag and retry count 0, and the head starts to send CALL or RESUME (R16,
R44). -/
def State.connect (s : State) (n : SlotNo) (x : Exchange) (tag : Tag) (resumed : Bool) : State :=
  (((s.leaveLists n).setSlot n (some { x with st := .connected tag 0 none })).setOp
    (.exchange (newConnection s n x resumed))).send (openingFrame resumed x tag)

/-- Grants an abort visit for the head of the abort-visit list (R122). -/
def State.grantVisit (s : State) (n : SlotNo) : State :=
  match s.slots[n] with
  | some x =>
    match x.st with
    | .aborting t f _ =>
      (((s.leaveLists n).setSlot n (some { x with st := .aborting t f (some 0) })).setOp
        (.abortVisit n s.host.retryLimit.toNat)).send (abortFrame x.station t)
    | _ => s
  | none => s

/-- Grants a resumption of a RECALLED or PARKED(POOL) slot (R16, R85). -/
def State.grantResume (s : State) (n : SlotNo) : State :=
  match s.slots[n] with
  | some x =>
    match x.st with
    | .recalled t _ => s.connect n x t true
    | .parkedPool t => s.connect n x t true
    | _ => s
  | none => s

/-- Whether a station is OFFLINE. -/
def Station.isOffline (st : Station) : Bool := st.state == .offline

/-- Whether some slot is PARKED(STATION), a reason for a poll (R104). -/
def State.someStationPark (s : State) : Bool :=
  s.slots.toList.any fun x =>
    match x with
    | some e => (match e.st with | .parkedStation _ _ => true | _ => false)
    | none => false

/-- Whether a poll is eligible (R104). -/
def State.pollEligible (s : State) : Bool :=
  s.arb.pollDue && s.arb.recallList.isEmpty && s.stations.toList.any (fun st => !st.isOffline) &&
    (s.someStationPark || s.stations.toList.any (fun st => st.state == .silent || st.backoff) ||
      s.host.pollAlways || s.arb.pollRequested)

/-- The stations a reply mask marks: every one that is not OFFLINE, in ascending address (R105). -/
def State.replyMask (s : State) : List StationNo :=
  (List.finRange 15).filter fun a => !s.stations[a].isOffline

/-- Grants a poll window: the mask is fixed, and the head starts to send POLL (R105). -/
def State.grantPoll (s : State) : State :=
  (s.setOp (.poll { phase := .sending, mask := s.replyMask, left := s.replyMask, slotTime := 0, cleanup := [] })).send
    (pollFrame s.replyMask)

/-- Whether a station can be called: UNKNOWN or ONLINE, no backoff, and fewer tags than its depth (R119). -/
def Station.canBeCalled (st : Station) : Bool :=
  (st.state == .unknown || st.state == .online) && !st.backoff && st.tagsHeld < st.depth

/-- Whether a slot of the issue queue is eligible for an issue pick (R119). -/
def State.issueEligible (s : State) (n : SlotNo) : Bool :=
  match s.slots[n] with
  | some x => s.stations[x.station].canBeCalled
  | none => false

/-- The slot an issue pick takes and the fairness counter after it (R120). -/
def State.issuePick (s : State) : Option (SlotNo × Nat) :=
  match s.arb.level1.find? s.issueEligible, s.arb.level0.find? s.issueEligible with
  | some n, some m => if s.arb.fairness < Config.fairnessLimit then some (n, s.arb.fairness + 1) else some (m, 0)
  | some n, none => some (n, 0)
  | none, some m => some (m, 0)
  | none, none => none

/-- Grants an issue pick: the lowest free tag of the QUEUED slot's station is bound, and the slot connects by CALL
(R16, R100, R121). -/
def State.grantCall (s : State) (n : SlotNo) (fairness : Nat) : State :=
  match s.slots[n] with
  | some x =>
    match x.st, s.stations[x.station].lowestFreeTag with
    | .queued, some t =>
      ((s.withArb fun g => { g with fairness := fairness }).setTag x.station t (some n)).connect n x t false
    | _, _ => s
  | none => s

/-- Grants the link to the first candidate by rank, or leaves it idle (R117). -/
def State.grantFirst (s : State) : State :=
  match s.arb.abortList, s.arb.recallList, s.arb.poolList with
  | n :: _, _, _ => s.grantVisit n
  | [], n :: _, _ => s.grantResume n
  | [], [], pools =>
    match pools, s.stage.free with
    | n :: _, _ :: _ => s.grantResume n
    | _, _ =>
      if s.pollEligible then s.grantPoll
      else
        match s.issuePick with
        | some (n, fairness) => s.grantCall n fairness
        | none => s

/-- The arbiter makes a choice when the link is idle and LINK_ENABLE is set (R116). -/
def State.choose (s : State) : State :=
  match s.link.op with
  | .idle => if s.host.linkEnable then s.grantFirst else s
  | _ => s

end Sys2Proof.Machine
end

