-- ==== Sys2Proof/Machine/Link.lean ====
section
/-!
DEFINITION. The conduct of link operations (chapters 3, 4, 5 and 8): the connection's bursts, grants, parks and
abort phase, abort visits, and the poll window with its cleanup. Each function is what the head does once it
holds the turn, or at the ending it names; the frames and events that lead there are in Receive, Sent and Timers.
-/

namespace Sys2Proof.Machine

/-! ### The connected slot -/

/-- A running connection with the CONNECTED slot it carries: the connection record, the slot record, and the
slot's tag, retry count and pending status. -/
structure Carried where
  c       : Connection
  x       : Exchange
  tag     : Tag
  retry   : Nat
  waiting : Option Fatal
  deriving DecidableEq, Repr

/-- The running connection with its slot, if one runs. -/
def State.carried (s : State) : Option Carried :=
  match s.link.op with
  | .exchange c =>
    match s.slots[c.slot] with
    | some x =>
      match x.st with
      | .connected t r p => some { c := c, x := x, tag := t, retry := r, waiting := p }
      | _ => none
    | none => none
  | _ => none

/-- Writes a connection and its slot back. -/
def State.carry (s : State) (k : Carried) : State :=
  (s.setSlot k.c.slot (some { k.x with st := .connected k.tag k.retry k.waiting })).setOp (.exchange k.c)

/-- The slot ends and its connection or visit ends with it (R25, R45). -/
def State.finish (s : State) (n : SlotNo) (final : FinalStatus) (status : Option Byte) (result : List Byte) : State :=
  (s.enterDone n final status result).endOp

/-- The slot ends, a miss is counted after its completion, and the operation ends (R94). -/
def State.finishMissed (s : State) (n : SlotNo) (final : FinalStatus) (a : StationNo) : State :=
  ((s.enterDone n final none []).miss a).endOp

/-! ### The abort phase (R68, R142 to R144) -/

/-- The connection enters its abort phase: the retry count is 0, unfilled reservations return, and the head sends
ABORT (R68). The phase changes as the head begins to send. DESIGN CHOICE, log entry 29. -/
def State.enterAbortPhase (s : State) (k : Carried) : State :=
  (s.giveUpReserved.carry { k with retry := 0, c := { k.c with phase := .abortSent, abortSent := true } }).send
    (abortFrame k.x.station k.tag)

/-- A recovery in ABORT_SENT: ABORT again, or the phase is given up and a miss counted (R143). -/
def State.abortRecovery (s : State) (k : Carried) : State :=
  if k.retry < k.c.retryLimit then
    (s.carry { k with retry := k.retry + 1 }).send (abortFrame k.x.station k.tag)
  else
    s.finishMissed k.c.slot (k.waiting.getD .aborted).final k.x.station

/-- A fatal cause records the pending status, if none is set (R23). -/
def Carried.condemned (k : Carried) (f : Fatal) : Carried := { k with waiting := some (k.waiting.getD f) }

/-- With a pending status set, the head's turn carries ABORT; while the station keeps the turn, nothing more
happens (R67, R68). -/
def State.abortAtTurn (s : State) (k : Carried) : State :=
  if s.link.turn = .head then s.enterAbortPhase k else s.carry k

/-- A protocol error (R67): pending PROTOCOL if none is set, and ABORT at the head's turn. -/
def State.protocolError (s : State) (k : Carried) : State := s.abortAtTurn (k.condemned .protocol)

/-- The data phases are exhausted (R65): pending LINK_ERROR, and the abort phase at once. -/
def State.exhausted (s : State) (k : Carried) : State := s.enterAbortPhase (k.condemned .linkError)

/-! ### Write bursts (R53) -/

/-- The frames that remain from the done count (R53, R59). -/
def framesRemaining (x : Exchange) : Nat := frames x.count - x.doneCount / 64

/-- DATA frame `i` of the burst that begins at the done count (R41, R53). -/
def dataFrame (m : Memory) (k : Carried) (i : Nat) : Frame :=
  let j := k.x.doneCount / 64 + i
  let bytes := match k.x.chain[j]? with
    | some p => Memory.pageBytes m p (dataLength k.x.count j)
    | none => []
  headFrame .data (addressOf k.x.station) k.tag (k.c.oldest + BitVec.ofNat 3 i) (i + 1 == k.c.burst)
    (j + 1 == frames k.x.count) bytes

/-- The head starts a burst from the oldest unacknowledged frame: the lesser of the station credit and the frames
remaining (R53). Next-to-send goes back to the oldest unacknowledged number as a resend begins: R43 lets it follow the
last frame sent, R53 gives it after the burst, and R58 says nothing of it. DESIGN CHOICE, log entry 30. -/
def State.startBurst (s : State) (k : Carried) : State :=
  let n := min (k.c.stationCredit.getD 0) (framesRemaining k.x)
  let k' := { k with c := { k.c with phase := .sending, burst := n, nextSend := k.c.oldest } }
  (s.carry k').send (dataFrame s.stage.mem k' 0)

/-- The head sends ACK with credit 0 and awaits CLOSE (R64). The ACK carries the next-to-send number of a WRITE,
or the next-expected number of a READ. CLOSING is entered as the head begins to send it: R47 and R54 enter it at the
frame that leads to it, R64 when the ACK is sent and passes the turn. DESIGN CHOICE, log entry 29. -/
def State.sendClosingAck (s : State) (k : Carried) : State :=
  (s.carry { k with c := { k.c with phase := .closing } }).send
    (ackFrame k.x k.tag (if k.x.op = .read then k.c.nextExpected else k.c.nextSend) 0)

/-! ### Parks (R71, R74) -/

/-- The head parks for STATION: the deadline is armed, unfilled reservations of a READ return, the connection
record is discarded, and PARKED is sent (R71). `k.x.doneCount` is the park point. -/
def State.parkStation (s : State) (k : Carried) : State :=
  let limit := s.stations[k.x.station].parkLimit
  let deadline := s.park.timebase + limit.setWidth 32
  let parked := (s.setSlot k.c.slot (some { k.x with st := .parkedStation k.tag deadline })).arm k.c.slot limit.toNat
  let given := if k.x.op = .read then parked.giveUpReserved else parked
  (given.setOp .parking).send (parkedFrame k.x k.tag .station)

/-- The head parks a READ for POOL at its done count (R74). -/
def State.parkPool (s : State) (k : Carried) : State :=
  (((s.setSlot k.c.slot (some { k.x with st := .parkedPool k.tag })).joinPool k.c.slot).setOp .parking).send
    (parkedFrame k.x k.tag .pool)

/-! ### READ grants (R59, R60) -/

/-- Whether data remains at a grant point (R59). -/
def Carried.dataRemains (k : Carried) : Bool := !k.c.dataEnded && k.x.doneCount < k.x.count

/-- The credit of a grant while data remains (R59). -/
def State.grantCredit (s : State) (k : Carried) : Nat :=
  min s.stations[k.x.station].creditMax
    (min (framesRemaining k.x) (s.stage.free.length + s.stage.reserved.length))

/-- The head at a grant point of a READ (R59, R60). AWAITING, the burst size and the progress mark are set as the head
begins to send the ACK. DESIGN CHOICE, log entry 29. -/
def State.grantPoint (s : State) (k : Carried) : State :=
  if k.dataRemains then
    let credit := s.grantCredit k
    let reserved := s.withStage (·.reserveTo credit)
    if credit = 0 then reserved.parkPool k
    else
      (reserved.carry { k with c := { k.c with
        phase := .awaiting, burst := credit, progress := k.x.doneCount, discarding := false } }).send
        (ackFrame k.x k.tag k.c.nextExpected credit)
  else
    s.giveUpReserved.sendClosingAck
      { k with c := { k.c with burst := 0, progress := k.x.doneCount, discarding := false } }

/-- A recovery due in a data phase: the retry count rises and the head goes on, or the data phases are exhausted
(R5, R65). -/
def State.recover (s : State) (k : Carried) (goOn : State → Carried → State) : State :=
  if k.retry < k.c.retryLimit then goOn s { k with retry := k.retry + 1 } else s.exhausted k

/-- The turn has returned at the end of a station burst of a READ (R62): a burst with no progress while data
remains is a recovery, and the grant point follows. -/
def State.afterBurst (s : State) (k : Carried) : State :=
  if k.x.doneCount = k.c.progress ∧ k.dataRemains then s.recover k State.grantPoint else s.grantPoint k

/-! ### The station's endings (R18, R19) -/

/-- The final status of a CLOSE (R19). -/
def closeStatus (x : Exchange) (status : Byte) : FinalStatus :=
  if status ≠ 0 then .stationError
  else if x.op ≠ .control ∧ x.doneCount < x.count then .short
  else .ok

/-- A CLOSE decides the outcome of a connection (R19). -/
def State.closeByStation (s : State) (k : Carried) (status : Byte) (result : List Byte) : State :=
  s.finish k.c.slot (closeStatus k.x status) (some status) result

/-- A REFUSE(BUSY) to a CALL below the busy limit: the tag is freed, the slot joins the tail of its level, and
the station is put in backoff (R18, R95). -/
def State.requeue (s : State) (k : Carried) : State :=
  let freed := s.setTag k.x.station k.tag none
  let back := freed.setSlot k.c.slot (some { k.x with busyCount := k.x.busyCount + 1, st := .queued })
  ((back.joinIssue k.c.slot k.x.urgent).withStation k.x.station fun st => { st with backoff := true }).endOp

/-- A REFUSE in OPENING with no pending status and a reason other than 0 (R18, R50). -/
def State.refused (s : State) (k : Carried) (reason : Nat) : State :=
  if reason = 1 ∧ ¬ k.c.resumed then
    if k.x.busyCount + 1 < Config.busyLimit then s.requeue k
    else
      (s.setSlot k.c.slot (some { k.x with
          busyCount := k.x.busyCount + 1, st := .connected k.tag k.retry k.waiting })).finish
        k.c.slot .busyLimit (some (BitVec.ofNat 8 reason)) []
  else s.finish k.c.slot .refused (some (BitVec.ofNat 8 reason)) []

/-! ### Abort visits (R147, R148) -/

/-- A recovery of an abort visit: ABORT again, or the visit is given up and a miss counted (R147). -/
def State.visitRecovery (s : State) (n : SlotNo) (limit : Nat) : State :=
  match s.slots[n] with
  | some x =>
    match x.st with
    | .aborting t f (some r) =>
      if r < limit then
        (s.setSlot n (some { x with st := .aborting t f (some (r + 1)) })).send (abortFrame x.station t)
      else s.finishMissed n f.final x.station
    | _ => s
  | none => s

/-- An ABORTING slot ends with its pending status (R22). -/
def State.endAborting (s : State) (n : SlotNo) (status : Option Byte) : State :=
  match s.slots[n] with
  | some x =>
    match x.st with
    | .aborting _ f _ => s.enterDone n f.final status []
    | _ => s
  | none => s

/-! ### The poll window (R105 to R109) -/

/-- A slot that a cleanup takes up leaves the abort-visit list and is on the link, with retry count 0 (R109). -/
def State.takeUp (s : State) (n : SlotNo) : State :=
  match s.slots[n] with
  | some x =>
    match x.st with
    | .aborting t f _ => (s.leaveLists n).setSlot n (some { x with st := .aborting t f (some 0) })
    | _ => s
  | none => s

/-- The cleanup takes the entry at the head of its list: ABORT is sent, or the window ends (R109). -/
def State.serveCleanup (s : State) (w : PollWindow) : State :=
  match w.cleanup with
  | [] => s.endOp
  | e :: _ =>
    let taken := match e.slot with
      | some n => s.takeUp n
      | none => s
    (taken.setOp (.poll { w with phase := .cleaning })).send (abortFrame e.station e.tag)

/-- Opens the reply slot of the first station of `left` with REPLY_TIME as it stands, or, when none is left,
returns the turn to the head for the cleanup (R35, R105). -/
def State.openReplySlot (s : State) (w : PollWindow) (left : List StationNo) : State :=
  match left with
  | a :: rest =>
    s.withLink fun _ =>
      { op := .poll { w with phase := .listening, left := a :: rest, slotTime := s.host.replyTime }
        turn := .replySlot a, replyTimer := none, sending := none, lateOpen := false }
  | [] => s.serveCleanup { w with left := [] }

/-- The open reply slot has ended, and the next one opens or the cleanup begins (R105). -/
def State.endReplySlot (s : State) : State :=
  match s.link.op with
  | .poll w => s.openReplySlot w w.left.tail
  | _ => s

/-- The wait for the entry at the head of the cleanup list has ended: the entry leaves the list and the next one
is taken (R109). -/
def State.nextCleanup (s : State) : State :=
  match s.link.op with
  | .poll w => s.serveCleanup { w with cleanup := w.cleanup.tail }
  | _ => s

/-- An ABORT is entered for the poll cleanup (R108). -/
def State.enterCleanup (s : State) (e : CleanupEntry) : State :=
  s.withLink fun l =>
    match l.op with
    | .poll w => { l with op := .poll { w with cleanup := w.cleanup ++ [e] } }
    | _ => l

/-- An orphan recall (R82): a link fault ORPHAN, and an unbound entry for the cleanup. -/
def State.orphan (s : State) (a : StationNo) (t : Tag) : State :=
  (s.linkFault .orphan).enterCleanup { station := a, tag := t, slot := none }

/-- A matching recall makes the slot RECALLED at the tail of the recall list (R78, R80). -/
def State.recalled (s : State) (n : SlotNo) (x : Exchange) (t : Tag) (r : ParkReason) : State :=
  ((s.leaveLists n).setSlot n (some { x with st := .recalled t r })).joinRecall n

/-- The judgement of a recall naming station `a`, tag `t` and an offset (R77). -/
def State.judgeRecall (s : State) (a : StationNo) (t : Tag) (offset : Nat) : State :=
  match s.stations[a].tagMap[t] with
  | none => s.orphan a t
  | some n =>
    match s.slots[n] with
    | none => s.orphan a t
    | some x =>
      match x.st with
      | .parkedStation tag _ =>
        if offset = x.doneCount then s.recalled n x tag .station else s.condemn n x tag .protocol
      | .parkedPool tag =>
        if offset = x.doneCount ∧ s.stage.free ≠ [] then s.recalled n x tag .pool else s
      | .aborting _ _ _ => s.enterCleanup { station := a, tag := t, slot := some n }
      | _ => s.orphan a t

end Sys2Proof.Machine
end

