-- ==== Sys2Proof/Machine/Receive.lean ====
section
/-!
DEFINITION. The frames a station sends (chapters 2 to 5 and 8): the judgement of a frame at the receiver (R29,
R30, R37), what an accepted frame of each kind means in each operation, and the meanings of the receive rows.
-/

namespace Sys2Proof.Machine

/-! ### At the receiver -/

/-- Whether a frame is not taken: the head is sending, or a link reset runs (R37). A frame in progress when the head began
to send is discarded; one that was received together with the expiry that let the head send is still taken, and is stray
(R36, log entry 27). -/
def State.deaf (s : State) (withExpiry : Bool) : Bool :=
  (s.link.sending.isSome && !(withExpiry && s.link.lateOpen)) || s.link.op.isResetting

/-- The tag of the exchange the link operation concerns (R30): that of the connected slot, of the slot visited,
or of the cleanup entry being served. -/
def State.concernedTag (s : State) : Option Tag :=
  match s.link.op with
  | .exchange c =>
    match s.slots[c.slot] with
    | some x => x.st.tag?
    | none => none
  | .abortVisit n _ =>
    match s.slots[n] with
    | some x => x.st.tag?
    | none => none
  | .poll w =>
    match w.cleanup with
    | e :: _ => some e.tag
    | [] => none
  | _ => none

/-- The station from which a frame is accepted: the turn holder, when the address, the tag of every kind but REPLY, and, in
a reply slot, the kind are right; `none` is a stray frame (R30, R144, R150). The tag of a POLL is checked as these rules
say, although R28 does not name it as meaningful. DESIGN CHOICE, log entry 28. -/
def State.acceptedFrom (s : State) (f : Frame) : Option StationNo :=
  match s.link.turn with
  | .station a =>
    if f.body.address = addressOf a ∧ (f.kind = .reply ∨ s.concernedTag = some f.body.tag) then some a else none
  | .replySlot a => if f.body.address = addressOf a ∧ f.kind = .reply then some a else none
  | _ => none

/-- An accepted frame's effect on the turn and the reply timer (R34, R36). No frame restarts a reply slot. -/
def State.takeTurn (s : State) (f : Frame) : State :=
  match s.link.turn with
  | .station _ =>
    if returnsTurn f then s.withLink fun l => { l with turn := .head, replyTimer := none }
    else s.withLink fun l => { l with replyTimer := some s.host.replyTime }
  | _ => s

/-- A frame at its last check byte, its check value right. One that fails R30 is a stray link fault; one whose
length field is above 64 is damaged (R29). An accepted frame is first a frame seen (R93), then takes the turn,
then means what `phase` says; the arbiter chooses if the operation ended. -/
def State.receive (s : State) (f : Frame) (withExpiry : Bool) (phase : State → State) : State :=
  if s.deaf withExpiry then s
  else if 64 < f.body.payload.length then s.badFrame .crc
  else
    match s.acceptedFrom f with
    | some a => (phase ((s.stationSeen a).takeTurn f)).choose
    | none => s.badFrame .stray

/-! ### Frames other than CLOSE where only the turn counts -/

/-- A frame other than CLOSE in an abort visit: if it returned the turn, a recovery is due (R148). -/
def State.visitOther (s : State) (n : SlotNo) (limit : Nat) : State :=
  if s.link.turn = .head then s.visitRecovery n limit else s

/-- A frame other than CLOSE in a cleanup wait: one that returns the turn ends the wait, with no station status
and no miss (R150). -/
def State.cleanupOther (s : State) (w : PollWindow) : State :=
  if s.link.turn = .head then
    match w.cleanup with
    | e :: _ =>
      match e.slot with
      | some n => (s.endAborting n none).nextCleanup
      | none => s.nextCleanup
    | [] => s.nextCleanup
  else s

/-- A frame other than CLOSE in ABORT_SENT: if it returned the turn, a recovery is due (R144). -/
def State.abortSentOther (s : State) (k : Carried) : State :=
  if s.link.turn = .head then s.abortRecovery k else s

/-- An accepted frame that is neither CLOSE nor REFUSE: `normal` is its meaning in a connection with no pending
status; with one set it counts for the turn only (R67, R146). -/
def State.inOperation (s : State) (normal : State → Carried → State) : State :=
  match s.link.op with
  | .exchange _ =>
    match s.carried with
    | some k =>
      if k.c.abortSent then s.abortSentOther k
      else if k.waiting.isSome then s.abortAtTurn k
      else normal s k
    | none => s
  | .abortVisit n limit => s.visitOther n limit
  | .poll w => s.cleanupOther w
  | _ => s

/-! ### ACCEPT (R46 to R48) -/

/-- ACCEPT in a connection with no pending status. -/
def State.normalAccept (f : FrameBody) (s : State) (k : Carried) : State :=
  match k.c.phase, k.x.op, oneByte f with
  | .opening, .read, some _ => s.grantPoint k
  | .opening, .write, some credit =>
    if 1 ≤ credit ∧ credit ≤ 4 then
      let k' := { k with c := { k.c with stationCredit := some credit } }
      if k.x.doneCount < k.x.count then s.startBurst k' else s.sendClosingAck k'
    else s.protocolError k
  | _, _, _ => s.protocolError k

/-! ### REFUSE (R18, R50) -/

/-- REFUSE in a connection with no pending status: OPENING alone expects it, with a reason other than 0. -/
def State.normalRefuse (f : FrameBody) (s : State) (k : Carried) : State :=
  match k.c.phase, oneByte f with
  | .opening, some (reason + 1) => s.refused k (reason + 1)
  | _, _ => s.protocolError k

/-- An accepted REFUSE. With a pending status set and ABORT not sent, it ends the slot with the pending status
and the reason as station status (R18, R67); a malformed one counts for the turn only (R33, log entry 17). -/
def State.takeRefuse (f : FrameBody) (s : State) : State :=
  match s.link.op, s.carried with
  | .exchange _, some k =>
    if k.c.abortSent then s.abortSentOther k
    else
      match k.waiting, oneByte f with
      | some p, some reason => s.finish k.c.slot p.final (some (BitVec.ofNat 8 reason)) []
      | some _, none => s.abortAtTurn k
      | none, _ => s.normalRefuse f k
  | _, _ => s.inOperation (State.normalRefuse f)

/-! ### DEFER (R49, R56, R63) -/

/-- The offset just past the last byte of the burst just sent (R56). -/
def burstEnd (k : Carried) : Nat := min k.x.count (k.x.doneCount + 64 * k.c.burst)

/-- Whether a DEFER's offset is a valid park point (R49, R56, R63, R64). -/
def deferValid (k : Carried) (offset : Nat) : Bool :=
  match k.c.phase, k.x.op with
  | .opening, _ => offset == k.x.doneCount
  | .awaiting, .write =>
    k.x.doneCount ≤ offset && offset ≤ burstEnd k && (offset % 64 == 0 || offset == k.x.count)
  | .awaiting, .read => !k.c.dataEnded && offset == k.x.doneCount
  | _, _ => false

/-- DEFER in a connection with no pending status (R71). -/
def State.normalDefer (f : FrameBody) (s : State) (k : Carried) : State :=
  match deferOffset f with
  | some offset =>
    if deferValid k offset then s.parkStation { k with x := { k.x with doneCount := offset } }
    else s.protocolError k
  | none => s.protocolError k

/-! ### CLOSE (R19, R142, R148, R109) -/

/-- The station status a CLOSE gives where any length ends the slot; for a CLOSE of length 0 a free value. -/
def closeByte (f : FrameBody) (s : State) : Option Byte :=
  match f.payload with
  | b :: _ => some b
  | [] => Config.closeWithoutStatus s.freeCount

/-- An accepted CLOSE. -/
def State.takeClose (f : FrameBody) (s : State) : State :=
  let status := closeByte f s
  let counted := if f.payload = [] then s.useFree else s
  match s.link.op with
  | .exchange _ =>
    match s.carried with
    | some k =>
      if k.c.abortSent then counted.finish k.c.slot (k.waiting.getD .aborted).final status []
      else if closePermitted k.x.op f then
        match f.payload with
        | b :: result => s.closeByStation k b result
        | [] => s.protocolError k
      else s.protocolError k
    | none => s
  | .abortVisit n _ => (counted.endAborting n status).endOp
  | .poll w =>
    match w.cleanup with
    | e :: _ =>
      match e.slot with
      | some n => (counted.endAborting n status).nextCleanup
      | none => s.nextCleanup
    | [] => s.nextCleanup
  | _ => s

/-! ### ACK (R54, R55) -/

/-- The done count a WRITE has once `d` frames of its burst are acknowledged (R54). -/
def ackedCount (k : Carried) (d : Nat) : Nat := min k.x.count (k.x.doneCount + 64 * d)

/-- An ACK that passes the checks of R54 with distance `d`. -/
def State.acknowledged (s : State) (k : Carried) (seq : Seq) (d credit : Nat) : State :=
  let moved := ackedCount k d
  let k' := { k with
    x := { k.x with doneCount := moved }
    retry := if k.x.doneCount < moved then 0 else k.retry
    c := { k.c with oldest := seq, nextSend := seq } }
  if moved = k.x.count then s.sendClosingAck k'
  else
    let k'' := { k' with c := { k'.c with stationCredit := some credit } }
    if d < k.c.burst then s.recover k'' State.startBurst else s.startBurst k''

/-- ACK in a connection with no pending status: a WRITE in AWAITING alone expects it. -/
def State.normalAck (f : FrameBody) (s : State) (k : Carried) : State :=
  match k.c.phase, k.x.op, oneByte f with
  | .awaiting, .write, some credit =>
    let d := (f.seq - k.c.oldest).toNat
    if credit ≤ 4 ∧ d ≤ k.c.burst ∧ (credit = 0 → ackedCount k d = k.x.count) then
      s.acknowledged k f.seq d credit
    else s.protocolError k
  | _, _, _ => s.protocolError k

/-! ### DATA (R40, R61, R62) -/

/-- Whether an in-sequence DATA frame passes the checks of R61: its shape, count, and the grant. -/
def dataAcceptable (k : Carried) (reserved : List Page) (f : FrameBody) : Bool :=
  1 ≤ f.payload.length && (f.last || f.payload.length == 64) &&
    k.x.doneCount + f.payload.length ≤ k.x.count && !k.c.dataEnded && !reserved.isEmpty

/-- The oldest reserved page is filled and joins the tail of the slot's chain (R129). -/
def State.fillReserved (s : State) (k : Carried) (f : FrameBody) : State × Carried :=
  match s.stage.reserved with
  | p :: rest =>
    let moved := k.x.doneCount + f.payload.length
    (s.withStage fun g => { g with reserved := rest, mem := Memory.fillPage g.mem p f.payload },
     { k with
       x := { k.x with chain := k.x.chain ++ [p], doneCount := moved }
       retry := 0
       c := { k.c with nextExpected := k.c.nextExpected + 1, dataEnded := f.last || moved == k.x.count } })
  | [] => (s, k)

/-- What follows a DATA frame of a READ: a grant point if it returned the turn, else the next frame. -/
def State.afterData (s : State) (k : Carried) : State :=
  if s.link.turn = .head then s.afterBurst k else s.carry k

/-- DATA in a connection with no pending status: a READ in AWAITING alone expects it. An out-of-sequence frame is
discarded with the rest of its burst and judged no further (R40, R41, log entry 15). -/
def State.normalData (f : FrameBody) (s : State) (k : Carried) : State :=
  match k.c.phase, k.x.op with
  | .awaiting, .read =>
    if f.seq = k.c.nextExpected ∧ ¬ k.c.discarding then
      if dataAcceptable k s.stage.reserved f then
        (s.fillReserved k f).1.afterData (s.fillReserved k f).2
      else s.protocolError k
    else s.afterData { k with c := { k.c with discarding := true } }
  | _, _ => s.protocolError k

/-! ### REPLY (R76, R106, R107) -/

/-- The recall part of a REPLY: a tag byte of 8 or more names no tag and is a STRAY link fault (R76). -/
def State.takeRecall (s : State) (a : StationNo) (r : Option (Byte × Nat)) : State :=
  match r with
  | some (t, offset) =>
    if h : t.toNat < 8 then s.judgeRecall a ⟨t.toNat, h⟩ offset else s.linkFault .stray
  | none => s

/-- The attention part of a REPLY (R96). -/
def State.takeAttention (s : State) (a : StationNo) (code : Option Byte) : State :=
  match code with
  | some b => s.attention a b
  | none => s

/-- A REPLY in its reply slot: backoff is cleared, the recall judged and the attention passed on, in that order,
and the slot ends (R106). A malformed one is a STRAY link fault and ends the slot (R33, R107). -/
def State.replyInSlot (f : FrameBody) (s : State) (a : StationNo) : State :=
  match replyFields f.payload with
  | some r =>
    (((s.withStation a fun st => { st with backoff := false }).takeRecall a r.recalls).takeAttention a
      r.attention).endReplySlot
  | none => (s.linkFault .stray).endReplySlot

/-- An accepted REPLY: in a reply slot its parts are taken; elsewhere it is a kind unexpected for the phase. -/
def State.takeReply (f : FrameBody) (s : State) : State :=
  match s.link.turn with
  | .replySlot a => s.replyInSlot f a
  | _ => s.inOperation State.protocolError

/-! ### The receive rows -/

/-- ACCEPT_RECEIVED. -/
def execAcceptReceived (f : Received) (s : State) : Host.Outcome State Fault Refusal :=
  .next (s.taken (·.receive { kind := .accept, body := f.toFrameBody } f.withExpiry (·.inOperation (State.normalAccept f.toFrameBody))))

/-- REFUSE_RECEIVED. -/
def execRefuseReceived (f : Received) (s : State) : Host.Outcome State Fault Refusal :=
  .next (s.taken (·.receive { kind := .refuse, body := f.toFrameBody } f.withExpiry (State.takeRefuse f.toFrameBody)))

/-- DEFER_RECEIVED. -/
def execDeferReceived (f : Received) (s : State) : Host.Outcome State Fault Refusal :=
  .next (s.taken (·.receive { kind := .defer, body := f.toFrameBody } f.withExpiry (·.inOperation (State.normalDefer f.toFrameBody))))

/-- CLOSE_RECEIVED. -/
def execCloseReceived (f : Received) (s : State) : Host.Outcome State Fault Refusal :=
  .next (s.taken (·.receive { kind := .close, body := f.toFrameBody } f.withExpiry (State.takeClose f.toFrameBody)))

/-- ACK_RECEIVED. -/
def execAckReceived (f : Received) (s : State) : Host.Outcome State Fault Refusal :=
  .next (s.taken (·.receive { kind := .ack, body := f.toFrameBody } f.withExpiry (·.inOperation (State.normalAck f.toFrameBody))))

/-- DATA_RECEIVED. -/
def execDataReceived (f : Received) (s : State) : Host.Outcome State Fault Refusal :=
  .next (s.taken (·.receive { kind := .data, body := f.toFrameBody } f.withExpiry (·.inOperation (State.normalData f.toFrameBody))))

/-- REPLY_RECEIVED. -/
def execReplyReceived (f : Received) (s : State) : Host.Outcome State Fault Refusal :=
  .next (s.taken (·.receive { kind := .reply, body := f.toFrameBody } f.withExpiry (State.takeReply f.toFrameBody)))

/-- HEAD_ONLY_KIND_RECEIVED: a kind unexpected in every phase (R30, R66). -/
def execHeadOnlyKindReceived (kind : HeadOnlyKind) (f : Received) (s : State) :
    Host.Outcome State Fault Refusal :=
  .next (s.taken (·.receive { kind := kind.kind, body := f.toFrameBody } f.withExpiry (·.inOperation State.protocolError)))

/-- A frame taken by its kind. -/
def State.receiveByKind (s : State) (f : Frame) (withExpiry : Bool) : State :=
  s.receive f withExpiry fun t =>
    match f.kind with
    | .accept => t.inOperation (State.normalAccept f.body)
    | .refuse => t.takeRefuse f.body
    | .defer => t.inOperation (State.normalDefer f.body)
    | .close => t.takeClose f.body
    | .ack => t.inOperation (State.normalAck f.body)
    | .data => t.inOperation (State.normalData f.body)
    | .reply => t.takeReply f.body
    | .call | .resume | .parked | .abort | .poll => t.inOperation State.protocolError

/-- Received bytes (R29): a damaged frame records a link fault and nothing else; bytes that are not damaged are
the frame they spell; a run that has not come to its last check byte is not yet taken (log entry 11). -/
def State.receiveBytes (s : State) (b : ReceivedBytes) : State :=
  match judgeBytes b.bytes with
  | .incomplete => s
  | .damaged cause => if s.deaf b.withExpiry then s else s.badFrame cause
  | .frame f => s.receiveByKind f b.withExpiry

/-- FRAME_DAMAGED. -/
def execFrameDamaged (bytes : ReceivedBytes) (s : State) : Host.Outcome State Fault Refusal :=
  .next (s.taken (·.receiveBytes bytes))

end Sys2Proof.Machine
end

