-- ==== Sys2Proof/Machine/Events.lean ====
section
/-!
DEFINITION. Reading and popping the Event Queue (section 9.3).
-/

namespace Sys2Proof.Machine

/-- The snapshot a read of EVENT0 takes: the words of the head record, or all 0 for an empty queue (R163). -/
def EventQueue.headWords (e : EventQueue) : Vector Word 4 :=
  match e.records with
  | r :: _ => r.words
  | [] => Vector.replicate 4 0

/-- A read of EVENT0: the word returned and the state after it (R163). -/
def State.event0Read (s : State) : Word × State :=
  (s.events.headWords[0], s.withEvents fun e => { e with snapshot := some e.headWords })

/-- EVENT0_READ. -/
def execEvent0Read (s : State) : Host.Outcome State Fault Refusal := .next (s.hostRead State.event0Read)

/-- A slot record with event unread cleared (R7). -/
def Exchange.seen (x : Exchange) : Exchange :=
  match x.st with
  | .done f status _ result => { x with st := .done f status false result }
  | _ => x

/-- What the pop of a record clears at its source: event unread for a SLOT record, attention pending for a
STATION record of any kind (R164). -/
def State.clearSource (s : State) (src : Source) : State :=
  match src with
  | .slot n => s.setSlot n (s.slots[n].map Exchange.seen)
  | .station a => s.withStation a fun st => { st with attention := false }
  | .link => s

/-- EVENT_POP, whatever the word (R164). On an empty queue it still discards the snapshot. -/
def State.eventPop (s : State) : State :=
  match s.events.records with
  | r :: rest => (s.withEvents fun _ => { records := rest, snapshot := none }).clearSource r.source
  | [] => s.withEvents fun e => { e with snapshot := none }

/-- EVENT_POP. -/
def execEventPop (_ : Word) (s : State) : Host.Outcome State Fault Refusal := .next (s.taken State.eventPop)

end Sys2Proof.Machine
end

