-- ==== Sys2Proof/Machine/Resets.lean ====
section
/-!
DEFINITION. Link reset, soft reset and hardware reset (sections 1.8, 8.6 and 10.3), with the rows that begin and
end them.
-/

namespace Sys2Proof.Machine

/-- Whether a slot holds a tag (R27). -/
def State.holdsTag (s : State) (n : SlotNo) : Bool :=
  match s.slots[n] with
  | some x => x.st.tag?.isSome
  | none => false

/-- A slot that holds a tag enters DONE(LINK_RESET) (R27). -/
def State.endByLinkReset (s : State) (n : SlotNo) : State :=
  if s.holdsTag n then s.enterDone n .linkReset none [] else s

/-- A station record when a link reset begins (R111, log entry 18). -/
def Station.atLinkReset (st : Station) : Station :=
  { st with
    state := if st.state = .offline then .offline else .unknown
    tagMap := Vector.replicate 8 none, missCount := 0, backoff := false }

/-- A link reset begins (R152): the running operation is cut, the tag-holding slots end in ascending slot number,
the reservation list returns, and the station records take their link reset values. -/
def State.beginLinkReset (s : State) : State :=
  let cut := s.withLink fun _ =>
    { op := .resetBreak, turn := .nobody, replyTimer := none, sending := none, lateOpen := false }
  let ended := (List.finRange 32).foldl State.endByLinkReset cut
  let given := ended.giveUpReserved
  { given with stations := given.stations.map Station.atLinkReset }

/-- LINK_RESET (R151, R176). -/
def State.linkReset (s : State) : State :=
  if s.link.op.isResetting then s.result .badState 0 else s.beginLinkReset.result .ok 0

/-- LINK_RESET. -/
def execLinkReset (s : State) : Host.Outcome State Fault Refusal := .next (s.taken State.linkReset)

/-- A station record after a soft reset (R111, R179). -/
def Station.atSoftReset (st : Station) : Station :=
  { st with
    state := if st.state = .offline then .offline else .unknown
    tagMap := Vector.replicate 8 none, missCount := 0, backoff := false, attention := false }

/-- The Host Port after a soft reset (R177, R179). -/
def HostPort.atSoftReset (h : HostPort) : HostPort :=
  { h with
    linkEnable := false, hostFault := none, args := Vector.replicate 4 0, resultCode := .ok, resultValue := 0,
    slotSelect := 0, slotView := none, stationSelect := 0, stationView := none, stageSlot := 0, stageOffset := 0,
    timebaseLatch := 0 }

/-- The Link Arbiter after a soft reset (R111, R125): the poll interval timer is loaded from POLL_INTERVAL as
kept. -/
def arbiterAtSoftReset (pollInterval : Byte) : Arbiter :=
  { Arbiter.atReset with pollTimer := pollInterval.toNat }

/-- SOFT_RESET (R177): every block takes its soft reset values, and a link reset begins. It finds every slot FREE,
every list empty and no page reserved, so nothing but its break is left to begin. The page bytes are left as they
stand; no slot holds a page (R141). -/
def State.softReset (s : State) : State :=
  { s with
    host     := s.host.atSoftReset
    slots    := Vector.replicate 32 none
    stage    := { s.stage with free := freeListAtReset, reserved := [] }
    stations := s.stations.map Station.atSoftReset
    arb      := arbiterAtSoftReset s.host.pollInterval
    link     := { op := .resetBreak, turn := .nobody, replyTimer := none, sending := none, lateOpen := false }
    park     := { timebase := 0, deadlines := [] }
    events   := { records := [], snapshot := none } }

/-- SOFT_RESET. -/
def execSoftReset (s : State) : Host.Outcome State Fault Refusal := .next (s.taken State.softReset)

/-- Every block at its hardware reset values (R178, R179), with no link operation. -/
def State.hardwareReset (s : State) (held : Bool) (strap : BitVec 2) (op : LinkOp) : State :=
  { s with
    host     := { HostPort.atReset with held := held, rateStrap := strap, readData := s.host.readData }
    slots    := Vector.replicate 32 none
    stage    := { s.stage with free := freeListAtReset, reserved := [] }
    stations := Vector.replicate 15 Station.atReset
    arb      := Arbiter.atReset
    link     := { op := op, turn := .nobody, replyTimer := none, sending := none, lateOpen := false }
    park     := { timebase := 0, deadlines := [] }
    events   := { records := [], snapshot := none } }

/-- RESET_ASSERT (R26, R151, R178): all activity is cut, the values of the reset hold from this moment, and the
part takes no host access and no event until the input is released (log entry 16). -/
def execResetAssert (s : State) : Host.Outcome State Fault Refusal :=
  .next (s.hardwareReset true s.host.rateStrap .idle)

/-- RESET_RELEASE (R151, R178), also at power-up: every block takes its hardware reset values, the rate strap is
sampled (section 10.6), and a link reset begins. -/
def execResetRelease (strap : BitVec 2) (s : State) : Host.Outcome State Fault Refusal :=
  .next (s.hardwareReset false strap .resetBreak)

/-- The break of a link reset ends and its quiet period begins (R153). -/
def State.breakEnds (s : State) : State :=
  match s.link.op with
  | .resetBreak => s.setOp .resetQuiet
  | _ => s

/-- LINK_RESET_BREAK_END. -/
def execLinkResetBreakEnd (s : State) : Host.Outcome State Fault Refusal := .next (s.taken State.breakEnds)

/-- The quiet period runs out (R155): the link is idle, READY is posted or folded, and the arbiter chooses. -/
def State.linkResetEnds (s : State) : State :=
  match s.link.op with
  | .resetQuiet => (s.endOp.report .link .ready .absent).choose
  | _ => s

/-- LINK_RESET_END. -/
def execLinkResetEnd (s : State) : Host.Outcome State Fault Refusal := .next (s.taken State.linkResetEnds)

end Sys2Proof.Machine
end

