-- ==== Sys2Proof/Machine/SlotCommands.lean ====
section
/-!
DEFINITION. The slot commands CLAIM, ISSUE, ABORT and RELEASE (section 1.3). Each is taken whole at the write of
COMMAND, with its arguments as ARG0 to ARG3 stand (R174).
-/

namespace Sys2Proof.Machine

/-- The lowest-numbered FREE slot (R11). -/
def State.lowestFree (s : State) : Option SlotNo := (List.finRange 32).find? fun n => s.slots[n].isNone

/-- The slot record an accepted CLAIM makes (R11). -/
def claimedExchange (g : ClaimArgs) (chain : List Page) : Exchange where
  op          := g.op
  station     := g.station
  urgent      := g.urgent
  unitAddress := g.unitAddress
  count       := g.count
  doneCount   := 0
  busyCount   := 0
  chain       := chain
  params      := match g.op with | .control => List.replicate 8 0 | _ => []
  st          := .prepared

/-- The pages an op claims (R10, R128). -/
def pagesClaimed (g : ClaimArgs) : Nat :=
  match g.op with
  | .write => frames g.count
  | _ => 0

/-- CLAIM: the checks of R10 in their order, then the lowest FREE slot is PREPARED (R11). -/
def State.claim (s : State) : State :=
  match s.claimArgs with
  | none => s.result .badParam 0
  | some g =>
    if s.stations[g.station].isOffline then s.result .stationOffline 0
    else
      match s.lowestFree with
      | none => s.result .noSlot 0
      | some n =>
        if s.stage.free.length < pagesClaimed g then s.result .noPages 0
        else
          ((s.withStage (·.takeZeroed (pagesClaimed g))).setSlot n
            (some (claimedExchange g (s.stage.free.take (pagesClaimed g))))).result .ok n.val

/-- CLAIM. -/
def execClaim (s : State) : Host.Outcome State Fault Refusal := .next (s.taken State.claim)

/-- A command on the slot ARG0 names: a number above 31 is BAD_PARAM with value 0 (R9). -/
def State.onSlot (s : State) (f : SlotNo → State) : State :=
  match s.argSlot with
  | some n => f n
  | none => s.result .badParam 0

/-- ISSUE (R12). The arbiter may choose at once (R116). -/
def State.issueSlot (s : State) (n : SlotNo) : State :=
  match s.slots[n] with
  | some x =>
    match x.st with
    | .prepared =>
      if s.stations[x.station].isOffline then s.result .stationOffline n.val
      else (((s.setSlot n (some { x with st := .queued })).joinIssue n x.urgent).result .ok n.val).choose
    | _ => s.result .badState n.val
  | none => s.result .badState n.val

/-- ISSUE. -/
def execIssue (s : State) : Host.Outcome State Fault Refusal := .next (s.taken fun s => s.onSlot s.issueSlot)

/-- ABORT (R13, R14). The arbiter may choose at once (R116). -/
def State.abortSlot (s : State) (n : SlotNo) : State :=
  match s.slots[n] with
  | some x =>
    match x.st with
    | .queued => ((s.enterDone n .aborted none []).result .ok n.val).choose
    | .parkedStation t _ => ((s.condemn n x t .aborted).result .ok n.val).choose
    | .parkedPool t => ((s.condemn n x t .aborted).result .ok n.val).choose
    | .recalled t _ => ((s.condemn n x t .aborted).result .ok n.val).choose
    | .aborting _ _ _ => s.result .already n.val
    | .connected t r none =>
      (s.setSlot n (some { x with st := .connected t r (some .aborted) })).result .ok n.val
    | .connected _ _ (some _) => s.result .already n.val
    | .prepared => s.result .badState n.val
    | .done _ _ _ _ => s.result .badState n.val
  | none => s.result .badState n.val

/-- ABORT. -/
def execAbort (s : State) : Host.Outcome State Fault Refusal := .next (s.taken fun s => s.onSlot s.abortSlot)

/-- A slot goes to FREE and its chain returns to the free list (R15, R132). -/
def State.freeSlot (s : State) (n : SlotNo) (x : Exchange) : State :=
  (s.withStage (·.returnChain x.chain)).setSlot n none

/-- RELEASE (R15). The arbiter may choose at once, for a pool-wait head (R116). -/
def State.releaseSlot (s : State) (n : SlotNo) : State :=
  match s.slots[n] with
  | some x =>
    match x.st with
    | .prepared => ((s.freeSlot n x).result .ok n.val).choose
    | .done _ _ unread _ =>
      if unread then s.result .eventUnread n.val else ((s.freeSlot n x).result .ok n.val).choose
    | _ => s.result .badState n.val
  | none => s.result .badState n.val

/-- RELEASE. -/
def execRelease (s : State) : Host.Outcome State Fault Refusal := .next (s.taken fun s => s.onSlot s.releaseSlot)

end Sys2Proof.Machine
end

