-- ==== Sys2Proof/Machine/StagePort.lean ====
section
/-!
DEFINITION. The stage port: the cursor (R133), the area and limit of an access (R134, R135), and the accesses
themselves (R136 to R138).
-/

namespace Sys2Proof.Machine

/-! ### The cursor (R133) -/

/-- STAGE_SLOT: a value of 0 to 31 is taken and the offset becomes 0; a value above 31 is a STAGE_RANGE misuse. -/
def State.stageSlotWrite (s : State) (w : Word) : State :=
  if h : w.toNat < 32 then s.withHost fun p => { p with stageSlot := ⟨w.toNat, h⟩, stageOffset := 0 }
  else s.misuse .range

/-- STAGE_SLOT_WRITE. -/
def execStageSlotWrite (w : Word) (s : State) : Host.Outcome State Fault Refusal :=
  .next (s.taken (·.stageSlotWrite w))

/-- The even value at or just below a word. -/
def evenBelow (w : Word) : Word := w &&& 0xFFFE#16

/-- STAGE_OFFSET: an even value is taken; an odd one gives the even value just below it and a STAGE_ALIGN
misuse. -/
def State.stageOffsetWrite (s : State) (w : Word) : State :=
  let moved := s.withHost fun p => { p with stageOffset := evenBelow w }
  if w.getLsbD 0 then moved.misuse .align else moved

/-- STAGE_OFFSET_WRITE. -/
def execStageOffsetWrite (w : Word) (s : State) : Host.Outcome State Fault Refusal :=
  .next (s.taken (·.stageOffsetWrite w))

/-! ### The area of an access (R134, R135) -/

/-- The area an access reaches: a page chain, or bytes of the slot record. -/
inductive Area where
  | chain (pages : List Page)
  | bytes (b : List Byte)
  deriving DecidableEq, Repr

/-- The area and the limit of a read, where the slot's op and state allow one (the table of R135). -/
def Exchange.readArea (x : Exchange) : Option (Area × Nat) :=
  match x.op, x.st with
  | .write, _ => some (.chain x.chain, x.count)
  | .read, .done _ _ _ _ => some (.chain x.chain, x.doneCount)
  | .control, .prepared => some (.bytes x.params, x.count)
  | .control, .done _ _ _ result => some (.bytes result, result.length)
  | _, _ => none

/-- Whether a slot's op and state allow a write (the table of R135). Its limit is the count. -/
def Exchange.writeAllowed (x : Exchange) : Bool :=
  match x.op, x.st with
  | .write, .prepared => true
  | .control, .prepared => true
  | _, _ => false

/-- A byte of an area (R134). -/
def State.areaByte (s : State) (a : Area) (o : Nat) : Byte :=
  match a with
  | .chain pages => Memory.chainByte s.stage.mem pages o
  | .bytes b => b.getD o 0

/-! ### The accesses (R135, R136, R138) -/

/-- The offset moves on after a permitted access (R133). -/
def State.advanceOffset (s : State) : State := s.withHost fun p => { p with stageOffset := p.stageOffset + 2 }

/-- The word at an offset below the limit: at the limit minus 1 its high byte reads 0 (R136). -/
def State.areaWord (s : State) (a : Area) (o limit : Nat) : Word :=
  (if o + 1 < limit then s.areaByte a (o + 1) else 0#8) ++ s.areaByte a o

/-- A read of STAGE_DATA: the word returned and the state after it. A refused read returns 0 (R138). -/
def State.stageDataRead (s : State) : Word × State :=
  match s.slots[s.host.stageSlot] with
  | none => (0, s.misuse .state)
  | some x =>
    match x.readArea with
    | none => (0, s.misuse .state)
    | some (area, limit) =>
      if s.host.stageOffset.toNat < limit then
        (s.areaWord area s.host.stageOffset.toNat limit, s.advanceOffset)
      else (0, s.misuse .range)

/-- STAGE_DATA_READ. -/
def execStageDataRead (s : State) : Host.Outcome State Fault Refusal := .next (s.hostRead State.stageDataRead)

/-- The low byte of a window word. -/
def lowByte (w : Word) : Byte := w.extractLsb' 0 8

/-- The high byte of a window word. -/
def highByte (w : Word) : Byte := w.extractLsb' 8 8

/-- Stores a word in a parameter area: at the limit minus 1 its high byte is discarded (R136, R137). -/
def putParams (params : List Byte) (o limit : Nat) (w : Word) : List Byte :=
  if o + 1 < limit then (params.set o (lowByte w)).set (o + 1) (highByte w) else params.set o (lowByte w)

/-- Stores a word in a page chain: at the limit minus 1 its high byte is discarded (R134, R136, R137). -/
def putChain (m : Memory) (chain : List Page) (o limit : Nat) (w : Word) : Memory :=
  if o + 1 < limit then
    Memory.setChainByte (Memory.setChainByte m chain o (lowByte w)) chain (o + 1) (highByte w)
  else Memory.setChainByte m chain o (lowByte w)

/-- Stores a word in a PREPARED slot's area: its parameter area for CONTROL, else its page chain (R134, R137). -/
def State.storeWord (s : State) (n : SlotNo) (x : Exchange) (o : Nat) (w : Word) : State :=
  match x.op with
  | .control => s.setSlot n (some { x with params := putParams x.params o x.count w })
  | _ => s.withStage fun g => { g with mem := putChain g.mem x.chain o x.count w }

/-- A write of STAGE_DATA. -/
def State.stageDataWrite (s : State) (w : Word) : State :=
  match s.slots[s.host.stageSlot] with
  | none => s.misuse .state
  | some x =>
    if x.writeAllowed then
      if s.host.stageOffset.toNat < x.count then
        (s.storeWord s.host.stageSlot x s.host.stageOffset.toNat w).advanceOffset
      else s.misuse .range
    else s.misuse .state

/-- STAGE_DATA_WRITE. -/
def execStageDataWrite (w : Word) (s : State) : Host.Outcome State Fault Refusal :=
  .next (s.taken (·.stageDataWrite w))

end Sys2Proof.Machine
end

