-- ==== Sys2Proof/Machine/StationCommands.lean ====
section
/-!
DEFINITION. The station commands STATION_ON, STATION_OFF and STATION_CONFIG (section 5.3), and POLL_NOW.
-/

namespace Sys2Proof.Machine

/-- A command on the station ARG0 names: an address outside 1 to 15 is BAD_PARAM with value 0 (section 5.3). -/
def State.onStation (s : State) (f : StationNo → State) : State :=
  match s.argStation with
  | some a => f a
  | none => s.result .badParam 0

/-- The result value of a station command: the address (R175). -/
def stationValue (a : StationNo) : Nat := a.val + 1

/-- STATION_ON (R97). The arbiter may choose at once (R104, R116, log entry 19). -/
def State.stationOn (s : State) (a : StationNo) : State :=
  if s.stations[a].isOffline then
    ((s.withStation a fun st => { st with state := .unknown, missCount := 0 }).result .ok (stationValue a)).choose
  else s.result .badState (stationValue a)

/-- STATION_ON. -/
def execStationOn (s : State) : Host.Outcome State Fault Refusal := .next (s.taken fun s => s.onStation s.stationOn)

/-- What station loss does to one slot (R24). -/
def State.loseSlot (a : StationNo) (s : State) (n : SlotNo) : State :=
  match s.slots[n] with
  | some x =>
    if x.station = a then
      match x.st with
      | .queued => s.enterDone n .stationLost none []
      | .parkedStation _ _ => s.enterDone n .stationLost none []
      | .parkedPool _ => s.enterDone n .stationLost none []
      | .recalled _ _ => s.enterDone n .stationLost none []
      | .aborting _ f none => s.enterDone n f.final none []
      | .connected t r p => s.setSlot n (some { x with st := .connected t r (some (p.getD .stationLost)) })
      | _ => s
    else s
  | none => s

/-- STATION_OFF (R98): the station is OFFLINE with miss count 0 and no backoff, and R24 is applied to its slots in
ascending slot number. -/
def State.stationOff (s : State) (a : StationNo) : State :=
  if s.stations[a].isOffline then s.result .already (stationValue a)
  else
    ((List.finRange 32).foldl (State.loseSlot a)
      (s.withStation a fun st => { st with state := .offline, missCount := 0, backoff := false })).result .ok
      (stationValue a)

/-- STATION_OFF. -/
def execStationOff (s : State) : Host.Outcome State Fault Refusal :=
  .next (s.taken fun s => s.onStation s.stationOff)

/-- STATION_CONFIG (R99). -/
def State.stationConfig (s : State) (a : StationNo) : State :=
  if s.configInRange then
    if s.stations[a].isOffline then
      (s.withStation a fun st =>
        { st with depth := (s.arg 1).toNat, creditMax := (s.arg 2).toNat, parkLimit := s.arg 3 }).result .ok
        (stationValue a)
    else s.result .badState (stationValue a)
  else s.result .badParam (stationValue a)

/-- STATION_CONFIG. -/
def execStationConfig (s : State) : Host.Outcome State Fault Refusal :=
  .next (s.taken fun s => s.onStation s.stationConfig)

/-- POLL_NOW (R103, R176). -/
def State.pollNow (s : State) : State :=
  ((s.withArb fun g => { g with pollRequested := true }).result .ok 0).choose

/-- POLL_NOW. -/
def execPollNow (s : State) : Host.Outcome State Fault Refusal := .next (s.taken State.pollNow)

end Sys2Proof.Machine
end

