-- ==== Sys2Proof/Machine/Registers.lean ====
section
/-!
DEFINITION. The register window (chapter 10, section 11.2): configuration writes, the view and timebase
registers, COMMAND by its code, a write to any address, and the value each register reads.
-/

namespace Sys2Proof.Machine

/-! ### CONTROL, LINK_CONFIG, INT_ENABLE and HOST_FAULT -/

/-- A write of CONTROL sets both marks to the values written (R169). -/
def State.setMarks (s : State) (w : Word) : State :=
  s.withHost fun h => { h with linkEnable := w.getLsbD 0, pollAlways := w.getLsbD 1 }

/-- Whether a write of CONTROL changes a mark (R169). -/
def State.marksChange (s : State) (w : Word) : Bool :=
  w.getLsbD 0 != s.host.linkEnable || w.getLsbD 1 != s.host.pollAlways

/-- A write of CONTROL. A write that changes a mark may make the arbiter choose at once; one that leaves both at
their former values is no event for it (R116, R169, log entry 12). -/
def State.controlWrite (s : State) (w : Word) : State :=
  if s.marksChange w then (s.setMarks w).choose else s.setMarks w

/-- LINK_ENABLE_WRITE: a write of CONTROL, here for its LINK_ENABLE mark (R123, R169). -/
def execLinkEnableWrite (w : Word) (s : State) : Host.Outcome State Fault Refusal :=
  .next (s.taken (·.controlWrite w))

/-- POLL_ALWAYS_WRITE: a write of CONTROL, here for its POLL_ALWAYS mark (R169). -/
def execPollAlwaysWrite (w : Word) (s : State) : Host.Outcome State Fault Refusal :=
  .next (s.taken (·.controlWrite w))

/-- REPLY_TIME as stored: a value below 8 is stored as 8 (R170). -/
def clampReplyTime (b : Byte) : Byte := if b.toNat < 8 then 8 else b

/-- POLL_INTERVAL as stored: 0 is stored as 1 (R170). -/
def clampPollInterval (b : Byte) : Byte := if b = 0 then 1 else b

/-- A write of the first or the second word of LINK_CONFIG (R170). -/
def State.linkConfigWrite (s : State) (second : Bool) (w : Word) : State :=
  s.withHost fun h =>
    if second then { h with pollInterval := clampPollInterval (w.extractLsb' 0 8) }
    else { h with replyTime := clampReplyTime (w.extractLsb' 0 8), retryLimit := w.extractLsb' 8 3 }

/-- LINK_CONFIG_WRITE. -/
def execLinkConfigWrite (second : Bool) (w : Word) (s : State) : Host.Outcome State Fault Refusal :=
  .next (s.taken (·.linkConfigWrite second w))

/-- A write of INT_ENABLE sets the four enables (R171). -/
def State.intEnableWrite (s : State) (w : Word) : State :=
  s.withHost fun h => { h with
    intSlot := w.getLsbD 0, intStation := w.getLsbD 1, intLink := w.getLsbD 2, intHostFault := w.getLsbD 3 }

/-- INT_ENABLE_WRITE. -/
def execIntEnableWrite (w : Word) (s : State) : Host.Outcome State Fault Refusal :=
  .next (s.taken (·.intEnableWrite w))

/-- A write of HOST_FAULT: bit 2 clears the mark, its cause and its count; the other bits are ignored (R139,
R173). -/
def State.hostFaultWrite (s : State) (w : Word) : State :=
  if w.getLsbD 2 then s.withHost fun h => { h with hostFault := none } else s

/-- HOST_FAULT_CLEAR. -/
def execHostFaultClear (w : Word) (s : State) : Host.Outcome State Fault Refusal :=
  .next (s.taken (·.hostFaultWrite w))

/-! ### Views and timebase -/

/-- A write of SLOT_SELECT takes bits 7 to 0 and discards the snapshot (R180). -/
def State.slotSelectWrite (s : State) (w : Word) : State :=
  s.withHost fun h => { h with slotSelect := w.extractLsb' 0 8, slotView := none }

/-- SLOT_SELECT_WRITE. -/
def execSlotSelectWrite (w : Word) (s : State) : Host.Outcome State Fault Refusal :=
  .next (s.taken (·.slotSelectWrite w))

/-- The snapshot a read of SLOT_VIEW0 takes; a select value of 32 or more names no slot (R180). -/
def State.selectedSlotWords (s : State) : Vector Word 8 :=
  if h : s.host.slotSelect.toNat < 32 then s.slotViewWords ⟨s.host.slotSelect.toNat, h⟩ else Vector.replicate 8 0

/-- A read of SLOT_VIEW0 (R180). -/
def State.slotView0Read (s : State) : Word × State :=
  (s.selectedSlotWords[0], s.withHost fun h => { h with slotView := some s.selectedSlotWords })

/-- SLOT_VIEW0_READ. -/
def execSlotView0Read (s : State) : Host.Outcome State Fault Refusal := .next (s.hostRead State.slotView0Read)

/-- A write of STATION_SELECT takes bits 7 to 0 and discards the snapshot (R181). -/
def State.stationSelectWrite (s : State) (w : Word) : State :=
  s.withHost fun h => { h with stationSelect := w.extractLsb' 0 8, stationView := none }

/-- STATION_SELECT_WRITE. -/
def execStationSelectWrite (w : Word) (s : State) : Host.Outcome State Fault Refusal :=
  .next (s.taken (·.stationSelectWrite w))

/-- The snapshot a read of STATION_VIEW0 takes; a select value outside 1 to 15 names no station (R92, R181). -/
def State.selectedStationWords (s : State) : Vector Word 6 :=
  match stationAt s.host.stationSelect.toNat with
  | some a => s.stations[a].viewWords
  | none => Vector.replicate 6 0

/-- A read of STATION_VIEW0 (R181). -/
def State.stationView0Read (s : State) : Word × State :=
  (s.selectedStationWords[0], s.withHost fun h => { h with stationView := some s.selectedStationWords })

/-- STATION_VIEW0_READ. -/
def execStationView0Read (s : State) : Host.Outcome State Fault Refusal :=
  .next (s.hostRead State.stationView0Read)

/-- A read of TIMEBASE_LO returns the low half and latches the high half (R182). -/
def State.timebaseLoRead (s : State) : Word × State :=
  (s.park.timebase.extractLsb' 0 16,
   s.withHost fun h => { h with timebaseLatch := s.park.timebase.extractLsb' 16 16 })

/-- TIMEBASE_LO_READ. -/
def execTimebaseLoRead (s : State) : Host.Outcome State Fault Refusal := .next (s.hostRead State.timebaseLoRead)

/-! ### COMMAND (R174) -/

/-- The command a code names; a code of 0 or 11 to 255 is refused BAD_COMMAND with value 0, and nothing else
changes (R174, section 11.2). -/
def State.command (s : State) (code : Byte) : State :=
  match code.toNat with
  | 1 => s.claim
  | 2 => s.onSlot s.issueSlot
  | 3 => s.onSlot s.abortSlot
  | 4 => s.onSlot s.releaseSlot
  | 5 => s.onStation s.stationOn
  | 6 => s.onStation s.stationOff
  | 7 => s.onStation s.stationConfig
  | 8 => s.linkReset
  | 9 => s.pollNow
  | 10 => s.softReset
  | _ => s.result .badCommand 0

/-- UNKNOWN_COMMAND_CODE. A code that does name a command is that command (log entry 13). -/
def execUnknownCommandCode (code : Byte) (s : State) : Host.Outcome State Fault Refusal :=
  .next (s.taken (·.command code))

/-! ### A write to any address (R168) -/

/-- ARG0 to ARG3 hold the value last written (R174). -/
def State.argWrite (s : State) (i : Fin 4) (w : Word) : State :=
  s.withHost fun h => { h with args := h.args.set i w }

/-- A host write to a word address of the window (section 11.2). A write to a read-only register or to an
unassigned address is ignored. -/
def State.registerWrite (s : State) (offset : BitVec 7) (w : Word) : State :=
  match offset.toNat with
  | 0x01 => s.controlWrite w
  | 0x02 => s.linkConfigWrite false w
  | 0x03 => s.linkConfigWrite true w
  | 0x04 => s.intEnableWrite w
  | 0x08 => s.hostFaultWrite w
  | 0x10 => s.command (w.extractLsb' 0 8)
  | 0x11 => s.argWrite 0 w
  | 0x12 => s.argWrite 1 w
  | 0x13 => s.argWrite 2 w
  | 0x14 => s.argWrite 3 w
  | 0x18 => s.slotSelectWrite w
  | 0x21 => s.stationSelectWrite w
  | 0x28 => s.stageSlotWrite w
  | 0x29 => s.stageOffsetWrite w
  | 0x2A => s.stageDataWrite w
  | 0x34 => s.eventPop
  | _ => s

/-- REGISTER_WRITE. An address with a row of its own is that row's register (log entry 13). -/
def execRegisterWrite (offset : BitVec 7) (w : Word) (s : State) : Host.Outcome State Fault Refusal :=
  .next (s.taken (·.registerWrite offset w))

/-! ### The value each register reads (R168) -/

/-- HOST_FAULT: cause in bits 1 to 0 and count in bits 15 to 8 (R173). -/
def hostFaultWord (f : Option (StageFault × Nat)) : Word :=
  match f with
  | some (cause, n) => BitVec.ofNat 16 (cause.code + 256 * n)
  | none => 0

/-- A word of a snapshot, 0 while there is none (R163, R180, R181). -/
def snapshotWord {n : Nat} (v : Option (Vector Word n)) (i : Nat) : Word :=
  match v with
  | some ws => ws.toList.getD i 0
  | none => 0

/-- The word each address of the window returns to a read, as the state stands (section 11.2). COMMAND and
EVENT_POP hold nothing a read could return and read 0 (log entry 14). The reads with side effects are rows of
their own, and the word given for them here is the word they return. -/
def State.readRegister (s : State) (offset : BitVec 7) : Word :=
  if s.host.held then 0
  else
    match offset.toNat with
    | 0x00 => Config.idWord
    | 0x01 => BitVec.ofNat 16 (bit s.host.linkEnable + 2 * bit s.host.pollAlways)
    | 0x02 => BitVec.ofNat 16 (s.host.replyTime.toNat + 256 * s.host.retryLimit.toNat)
    | 0x03 => s.host.pollInterval.setWidth 16
    | 0x04 =>
      BitVec.ofNat 16 (bit s.host.intSlot + 2 * bit s.host.intStation + 4 * bit s.host.intLink +
        8 * bit s.host.intHostFault)
    | 0x05 => s.statusWord 0
    | 0x06 => s.statusWord 1
    | 0x07 => s.statusWord 2
    | 0x08 => hostFaultWord s.host.hostFault
    | 0x11 => s.host.args[0]
    | 0x12 => s.host.args[1]
    | 0x13 => s.host.args[2]
    | 0x14 => s.host.args[3]
    | 0x15 => BitVec.ofNat 16 (s.host.resultCode.code + 256 * s.host.resultValue.toNat)
    | 0x18 => s.host.slotSelect.setWidth 16
    | 0x19 => s.slotView0Read.1
    | 0x1A => snapshotWord s.host.slotView 1
    | 0x1B => snapshotWord s.host.slotView 2
    | 0x1C => snapshotWord s.host.slotView 3
    | 0x1D => snapshotWord s.host.slotView 4
    | 0x1E => snapshotWord s.host.slotView 5
    | 0x1F => snapshotWord s.host.slotView 6
    | 0x20 => snapshotWord s.host.slotView 7
    | 0x21 => s.host.stationSelect.setWidth 16
    | 0x22 => s.stationView0Read.1
    | 0x23 => snapshotWord s.host.stationView 1
    | 0x24 => snapshotWord s.host.stationView 2
    | 0x25 => snapshotWord s.host.stationView 3
    | 0x26 => snapshotWord s.host.stationView 4
    | 0x27 => snapshotWord s.host.stationView 5
    | 0x28 => BitVec.ofNat 16 s.host.stageSlot.val
    | 0x29 => s.host.stageOffset
    | 0x2A => s.stageDataRead.1
    | 0x30 => s.event0Read.1
    | 0x31 => snapshotWord s.events.snapshot 1
    | 0x32 => snapshotWord s.events.snapshot 2
    | 0x33 => snapshotWord s.events.snapshot 3
    | 0x38 => s.timebaseLoRead.1
    | 0x39 => s.host.timebaseLatch
    | _ => 0

end Sys2Proof.Machine
end

