-- ==== Sys2Proof/Machine/Sent.lean ====
section
/-!
DEFINITION. The ends of the frames the head sends (R34, R35, R53, R71, R105). Each row is taken when the frame the
head is sending is of the row's kind; otherwise no such frame is ending, and nothing happens (log entry 9).
-/

namespace Sys2Proof.Machine

/-- The head finishes the frame it is sending, if that frame is of kind `k`. -/
def State.sent (s : State) (k : FrameKind) (g : State → Frame → State) : State :=
  match s.link.sending with
  | some f => if f.kind = k then g s f else s
  | none => s

/-- The frame passes the turn to the station it is addressed to (R34). -/
def State.passTo (s : State) (f : Frame) : State :=
  match stationAt f.body.address.toNat with
  | some a => s.passTurn a
  | none => s

/-- A DATA frame of a burst has been sent (R53): the TURN frame passes the turn and enters AWAITING; otherwise the
next frame follows, or ABORT in its place when a pending status is set (R68). -/
def State.dataSent (s : State) (f : Frame) : State :=
  match s.carried with
  | some k =>
    let k' := { k with c := { k.c with nextSend := f.body.seq + 1 } }
    if f.body.turn then (s.carry { k' with c := { k'.c with phase := .awaiting } }).passTo f
    else if k.waiting.isSome then s.enterAbortPhase k'
    else (s.carry k').send (dataFrame s.stage.mem k' (k'.c.nextSend - k'.c.oldest).toNat)
  | none => s

/-- PARKED has been sent: the connection ends and the link falls idle (R71, R74). -/
def State.parkedDone (s : State) (_ : Frame) : State :=
  match s.link.op with
  | .parking => s.endOp.choose
  | _ => s

/-- POLL has been sent: poll-due and the poll-requested mark are cleared, and the first reply slot opens (R105). -/
def State.pollDone (s : State) (_ : Frame) : State :=
  match s.link.op with
  | .poll w =>
    (s.withArb fun g => { g with pollDue := false, pollRequested := false }).openReplySlot w w.mask
  | _ => s

/-- CALL_SENT. -/
def execCallSent (s : State) : Host.Outcome State Fault Refusal := .next (s.taken (·.sent .call State.passTo))

/-- RESUME_SENT. -/
def execResumeSent (s : State) : Host.Outcome State Fault Refusal := .next (s.taken (·.sent .resume State.passTo))

/-- DATA_FRAME_SENT. -/
def execDataFrameSent (s : State) : Host.Outcome State Fault Refusal := .next (s.taken (·.sent .data State.dataSent))

/-- ACK_FRAME_SENT. -/
def execAckFrameSent (s : State) : Host.Outcome State Fault Refusal := .next (s.taken (·.sent .ack State.passTo))

/-- ABORT_FRAME_SENT. -/
def execAbortFrameSent (s : State) : Host.Outcome State Fault Refusal := .next (s.taken (·.sent .abort State.passTo))

/-- PARKED_SENT. -/
def execParkedSent (s : State) : Host.Outcome State Fault Refusal :=
  .next (s.taken (·.sent .parked State.parkedDone))

/-- POLL_SENT. -/
def execPollSent (s : State) : Host.Outcome State Fault Refusal := .next (s.taken (·.sent .poll State.pollDone))

end Sys2Proof.Machine
end

