-- ==== Sys2Proof/Machine/Timers.lean ====
section
/-!
DEFINITION. Time: the advance of the timebase with the deadline list and the poll interval timer (R87, R90, R102),
the reply timer (R36) and the reply slot (R107).
-/

namespace Sys2Proof.Machine

/-! ### The timebase, the deadline list and the poll interval timer -/

/-- Whether a slot's deadline equals the timebase (R90). -/
def State.deadlineReached (s : State) (n : SlotNo) : Bool :=
  match s.slots[n] with
  | some x =>
    match x.st with
    | .parkedStation _ d => d == s.park.timebase
    | _ => false
  | none => false

/-- An expiry (R90): the slot becomes ABORTING with pending PARK_EXPIRED and joins the abort-visit list. -/
def State.expire (s : State) (n : SlotNo) : State :=
  match s.slots[n] with
  | some x =>
    match x.st with
    | .parkedStation t _ => s.condemn n x t .parkExpired
    | _ => s
  | none => s

/-- Takes the expiries at the head of a deadline list, one after another, up to the first entry whose deadline is
not reached (R90). -/
def State.expireWhile (s : State) : List SlotNo → State
  | [] => s
  | n :: ns => if s.deadlineReached n then (s.expire n).expireWhile ns else s

/-- Whether the head of the deadline list is reached. -/
def State.headReached (s : State) : Bool :=
  match s.park.deadlines with
  | n :: _ => s.deadlineReached n
  | [] => false

/-- The expiries of one advance, and the arbiter's choice (R90). -/
def State.takeExpiries (s : State) : State := (s.expireWhile s.park.deadlines).choose

/-- The poll interval timer expires: poll-due is set and the count is loaded again (R102). -/
def State.pollTimerExpires (s : State) : State :=
  s.withArb fun g => { g with pollDue := true, pollTimer := s.host.pollInterval.toNat }

/-- Whether the next fall of the poll interval timer brings it to 0 (R102). -/
def State.pollTimerEnds (s : State) : Bool := s.arb.pollTimer ≤ 1

/-- The poll interval timer falls by one, and at 0 expires (R102); the arbiter's choice follows. -/
def State.pollTick (s : State) : State :=
  if s.pollTimerEnds then s.pollTimerExpires.choose
  else s.withArb fun g => { g with pollTimer := g.pollTimer - 1 }

/-- The timebase advances by one and wraps (R87). -/
def State.tick (s : State) : State := s.withPark fun p => { p with timebase := p.timebase + 1 }

/-- An advance of the timebase with what falls on it (R87, R90, R102). Where a deadline and the poll interval
timer expire on one advance, which is taken first is a free value. -/
def State.advance (s : State) : State :=
  if s.tick.headReached && s.pollTimerEnds then
    if Config.pollTimerFirst s.freeCount then s.tick.useFree.pollTick.takeExpiries
    else s.tick.useFree.takeExpiries.pollTick
  else if s.tick.headReached then s.tick.takeExpiries.pollTick
  else s.tick.pollTick

/-- TIMEBASE_ADVANCE. -/
def execTimebaseAdvance (s : State) : Host.Outcome State Fault Refusal := .next (s.taken State.advance)

/-- The head of the deadline list expires, if its deadline is reached. -/
def State.expireHead (s : State) : State :=
  match s.park.deadlines with
  | n :: _ => if s.deadlineReached n then (s.expire n).choose else s
  | [] => s

/-- DEADLINE_EXPIRY: one expiry of its own. TIMEBASE_ADVANCE takes every expiry that falls on it, so this row finds
one only where none has taken it (log entry 8). -/
def execDeadlineExpiry (s : State) : Host.Outcome State Fault Refusal := .next (s.taken State.expireHead)

/-- POLL_INTERVAL_EXPIRY: the event that the timer reaches 0 (R102, log entry 8). -/
def execPollIntervalExpiry (s : State) : Host.Outcome State Fault Refusal :=
  .next (s.taken fun s => s.pollTimerExpires.choose)

/-! ### The reply timer -/

/-- The recovery of a connection whose reply timer has run out; the head holds the turn (R52, R58, R62, R64,
R67, R143). -/
def State.connectionTimeout (s : State) (k : Carried) : State :=
  if k.c.abortSent then s.abortRecovery k
  else if k.waiting.isSome then s.enterAbortPhase k
  else
    match k.c.phase, k.x.op with
    | .opening, _ =>
      if k.retry < k.c.retryLimit then
        (s.carry { k with retry := k.retry + 1 }).send (openingFrame k.c.resumed k.x k.tag)
      else s.finishMissed k.c.slot .noAnswer k.x.station
    | .awaiting, .write => s.recover k State.startBurst
    | .awaiting, .read => s.recover k State.grantPoint
    | .closing, _ => s.recover k State.sendClosingAck
    | _, _ => s

/-- The reply timer runs out in a cleanup wait: a bound slot ends with its pending status, and a miss is counted
(R109). -/
def State.cleanupTimeout (s : State) (w : PollWindow) : State :=
  match w.cleanup with
  | e :: _ =>
    match e.slot with
    | some n => ((s.endAborting n none).miss e.station).nextCleanup
    | none => (s.miss e.station).nextCleanup
  | [] => s.nextCleanup

/-- The reply timer runs out: the turn returns to the head, and the operation's recovery follows (R36). A frame that was
received together with the expiry is then stray (log entry 27). -/
def State.replyTimeout (s : State) : State :=
  match s.link.replyTimer with
  | none => s
  | some _ =>
    let back := s.withLink fun l => { l with turn := .head, replyTimer := none }
    match back.link.op with
    | .exchange _ =>
      match back.carried with
      | some k => (back.connectionTimeout k).choose.openLate
      | none => s
    | .abortVisit n limit => (back.visitRecovery n limit).choose.openLate
    | .poll w => (back.cleanupTimeout w).choose.openLate
    | _ => s

/-- REPLY_TIMER_EXPIRY. -/
def execReplyTimerExpiry (s : State) : Host.Outcome State Fault Refusal := .next (s.taken State.replyTimeout)

/-- A reply slot runs out: a miss is counted, and the next slot or the cleanup begins (R107). A REPLY that was
received together with the running-out is then stray (log entry 27). -/
def State.replySlotTimeout (s : State) : State :=
  match s.link.turn with
  | .replySlot a => (s.miss a).endReplySlot.choose.openLate
  | _ => s

/-- REPLY_SLOT_TIMEOUT. -/
def execReplySlotTimeout (s : State) : Host.Outcome State Fault Refusal := .next (s.taken State.replySlotTimeout)

end Sys2Proof.Machine
end

