-- ==== Sys2Proof/Machine/Dispatch.lean ====
section
/-!
DEFINITION. The effect of every command and event: one arm per constructor of Instr, in the order of the table.
-/

namespace Sys2Proof.Machine

def exec (i : Instr) (s : State) : Host.Outcome State Fault Refusal :=
  match i with
  | .claim => Sys2Proof.Machine.execClaim s
  | .issue => Sys2Proof.Machine.execIssue s
  | .abort => Sys2Proof.Machine.execAbort s
  | .release => Sys2Proof.Machine.execRelease s
  | .stationOn => Sys2Proof.Machine.execStationOn s
  | .stationOff => Sys2Proof.Machine.execStationOff s
  | .stationConfig => Sys2Proof.Machine.execStationConfig s
  | .linkReset => Sys2Proof.Machine.execLinkReset s
  | .pollNow => Sys2Proof.Machine.execPollNow s
  | .softReset => Sys2Proof.Machine.execSoftReset s
  | .unknownCommandCode code => Sys2Proof.Machine.execUnknownCommandCode code s
  | .linkEnableWrite word => Sys2Proof.Machine.execLinkEnableWrite word s
  | .pollAlwaysWrite word => Sys2Proof.Machine.execPollAlwaysWrite word s
  | .linkConfigWrite second word => Sys2Proof.Machine.execLinkConfigWrite second word s
  | .intEnableWrite word => Sys2Proof.Machine.execIntEnableWrite word s
  | .hostFaultClear word => Sys2Proof.Machine.execHostFaultClear word s
  | .stageSlotWrite word => Sys2Proof.Machine.execStageSlotWrite word s
  | .stageOffsetWrite word => Sys2Proof.Machine.execStageOffsetWrite word s
  | .stageDataRead => Sys2Proof.Machine.execStageDataRead s
  | .stageDataWrite word => Sys2Proof.Machine.execStageDataWrite word s
  | .event0Read => Sys2Proof.Machine.execEvent0Read s
  | .eventPop word => Sys2Proof.Machine.execEventPop word s
  | .slotSelectWrite word => Sys2Proof.Machine.execSlotSelectWrite word s
  | .slotView0Read => Sys2Proof.Machine.execSlotView0Read s
  | .stationSelectWrite word => Sys2Proof.Machine.execStationSelectWrite word s
  | .stationView0Read => Sys2Proof.Machine.execStationView0Read s
  | .timebaseLoRead => Sys2Proof.Machine.execTimebaseLoRead s
  | .registerWrite offset word => Sys2Proof.Machine.execRegisterWrite offset word s
  | .resetAssert => Sys2Proof.Machine.execResetAssert s
  | .resetRelease strap => Sys2Proof.Machine.execResetRelease strap s
  | .timebaseAdvance => Sys2Proof.Machine.execTimebaseAdvance s
  | .deadlineExpiry => Sys2Proof.Machine.execDeadlineExpiry s
  | .pollIntervalExpiry => Sys2Proof.Machine.execPollIntervalExpiry s
  | .replyTimerExpiry => Sys2Proof.Machine.execReplyTimerExpiry s
  | .replySlotTimeout => Sys2Proof.Machine.execReplySlotTimeout s
  | .linkResetBreakEnd => Sys2Proof.Machine.execLinkResetBreakEnd s
  | .linkResetEnd => Sys2Proof.Machine.execLinkResetEnd s
  | .frameDamaged bytes => Sys2Proof.Machine.execFrameDamaged bytes s
  | .acceptReceived f => Sys2Proof.Machine.execAcceptReceived f s
  | .refuseReceived f => Sys2Proof.Machine.execRefuseReceived f s
  | .deferReceived f => Sys2Proof.Machine.execDeferReceived f s
  | .closeReceived f => Sys2Proof.Machine.execCloseReceived f s
  | .ackReceived f => Sys2Proof.Machine.execAckReceived f s
  | .dataReceived f => Sys2Proof.Machine.execDataReceived f s
  | .replyReceived f => Sys2Proof.Machine.execReplyReceived f s
  | .headOnlyKindReceived kind f => Sys2Proof.Machine.execHeadOnlyKindReceived kind f s
  | .callSent => Sys2Proof.Machine.execCallSent s
  | .resumeSent => Sys2Proof.Machine.execResumeSent s
  | .dataFrameSent => Sys2Proof.Machine.execDataFrameSent s
  | .ackFrameSent => Sys2Proof.Machine.execAckFrameSent s
  | .abortFrameSent => Sys2Proof.Machine.execAbortFrameSent s
  | .parkedSent => Sys2Proof.Machine.execParkedSent s
  | .pollSent => Sys2Proof.Machine.execPollSent s

end Sys2Proof.Machine
end

