-- ==== Sys2Proof/Safety.lean ====
section
/-!
DEFINITION. What a safe run keeps: the invariants of the state that the rules of spec/ state. Each is a statement
about one state; that every step keeps it, and that State.reset has it, are obligations.
-/

namespace Sys2Proof.Machine

/-! ### Ranges -/

/-- A station record in range (R92, R94, R99). -/
abbrev Station.inRange (st : Station) : Prop :=
  st.missCount ≤ 3 ∧ 1 ≤ st.depth ∧ st.depth ≤ 8 ∧ 1 ≤ st.creditMax ∧ st.creditMax ≤ 4 ∧ 1 ≤ st.parkLimit.toNat

/-- A HOST_FAULT count in range (R139). -/
def faultCountInRange (f : Option (StageFault × Nat)) : Bool :=
  match f with
  | some (_, n) => n ≤ 255
  | none => true

/-- The registers and counters of every block in range: LINK_CONFIG as clamped (R170), an even STAGE_OFFSET (R133),
the HOST_FAULT count (R139), the fairness counter (R120), the poll interval timer (R102), the station records
(R92), and the repeat counts of the event records (R161). -/
abbrev State.registersInRange (s : State) : Prop :=
  8 ≤ s.host.replyTime.toNat ∧ 1 ≤ s.host.pollInterval.toNat ∧ s.host.stageOffset.toNat % 2 = 0 ∧
  faultCountInRange s.host.hostFault = true ∧ s.arb.fairness ≤ 4 ∧
  1 ≤ s.arb.pollTimer ∧ s.arb.pollTimer ≤ 255 ∧ (∀ a : StationNo, s.stations[a].inRange) ∧
  ∀ r ∈ s.events.records, r.repeats ≤ 255

/-! ### Slot records -/

/-- Whether a slot state is DONE. -/
def SlotState.isDone : SlotState → Bool
  | .done _ _ _ _ => true
  | _ => false

/-- Whether a slot state is DONE with event unread set. -/
def SlotState.isUnread : SlotState → Bool
  | .done _ _ u _ => u
  | _ => false

/-- The number of result bytes a slot state keeps. -/
def SlotState.resultLength : SlotState → Nat
  | .done _ _ _ result => result.length
  | _ => 0

/-- The pages and parameter bytes an op has: a WRITE holds the pages of its count, a READ those of its done count,
and a CONTROL none, with 8 parameter bytes (R6, R128, R129). -/
def Exchange.areasFit (x : Exchange) : Bool :=
  match x.op with
  | .write => x.chain.length == frames x.count && x.params.isEmpty
  | .read => x.chain.length == frames x.doneCount && x.params.isEmpty
  | .control => x.chain.isEmpty && x.params.length == 8

/-- Whether a READ can still be filled or resumed at its done count: at a page boundary, or whole (R61, R71). -/
def Exchange.atBoundary (x : Exchange) : Bool := x.doneCount % 64 == 0 || x.doneCount == x.count

/-- A slot record in range (R1, R3, R4, R6, R10). A READ stands at a page boundary in every state but CONNECTED,
ABORTING and DONE. -/
def Exchange.inRange (x : Exchange) : Bool :=
  countInRange x.op x.count && x.doneCount ≤ x.count && x.areasFit && x.st.resultLength ≤ 8 &&
    (if x.st.isDone then x.busyCount ≤ 8 else x.busyCount < 8) &&
    (match x.op, x.st with
     | .read, .connected _ _ _ => true
     | .read, .aborting _ _ _ => true
     | .read, .done _ _ _ _ => true
     | .read, _ => x.atBoundary
     | _, _ => true)

/-- The connected slot's record agrees with its connection: a READ whose data has not ended, or whose CALL or RESUME
is unanswered, stands at a page boundary (R44, R61). -/
def State.connectionFits (s : State) : Bool :=
  match s.link.op with
  | .exchange c =>
    match s.slots[c.slot] with
    | some x => if x.op = .read ∧ (¬ c.dataEnded ∨ c.phase = .opening) then x.atBoundary else true
    | none => true
  | _ => true

/-- Every slot record in range, with its connection. -/
abbrev State.slotsInRange (s : State) : Prop :=
  (∀ n : SlotNo, ∀ x ∈ s.slots[n], x.inRange = true) ∧ s.connectionFits = true

/-! ### Pages (R126, R130) -/

/-- The page chain of a slot number; a FREE slot has none. -/
def State.chainOf (s : State) (n : SlotNo) : List Page :=
  match s.slots[n] with
  | some x => x.chain
  | none => []

/-- Every page of the part: the free list, the reservation list, then the chains in slot order. -/
def State.allPages (s : State) : List Page :=
  s.stage.free ++ s.stage.reserved ++ (List.finRange 32).flatMap s.chainOf

/-- Each of the 256 pages stands in exactly one place (R126). -/
abbrev State.pagesConserved (s : State) : Prop := s.allPages.Perm (List.finRange 256)

/-- Whether a READ slot is on the link in an exchange and awaits its data. -/
def State.readAwaits (s : State) : Bool :=
  match s.link.op with
  | .exchange c =>
    match s.slots[c.slot] with
    | some x => x.isConnectedRead && c.phase == .awaiting
    | none => false
  | _ => false

/-- Pages are reserved only for a READ that is on the link and awaits its data, and never more than 4 (R59, R130,
R131). -/
abbrev State.reservationsFit (s : State) : Prop :=
  s.stage.reserved.length ≤ 4 ∧ (s.stage.reserved ≠ [] → s.readAwaits = true)

/-! ### Events (R157, R158, R164) -/

/-- Whether a slot is DONE with event unread set. -/
def State.unread (s : State) (n : SlotNo) : Bool :=
  match s.slots[n] with
  | some x => x.st.isUnread
  | none => false

/-- Each source has at most one record; a slot has one exactly while its event unread mark is set; and a station
whose attention pending mark is set has one (R96, R157, R158, R164). -/
abbrev State.eventsFit (s : State) : Prop :=
  (s.events.records.map EventRecord.source).Nodup ∧
  (∀ n : SlotNo, s.hasRecord (.slot n) = s.unread n) ∧
  ∀ a : StationNo, s.stations[a].attention = true → s.hasRecord (.station a) = true

/-! ### Lists, tags and the link (R21, R88, R100, R112) -/

/-- The state of the slot with a number, `none` while it is FREE. -/
def State.slotState (s : State) (n : SlotNo) : Option SlotState := s.slots[n].map Exchange.st

/-- Whether a slot is QUEUED at a priority. -/
def State.isQueued (s : State) (urgent : Bool) (n : SlotNo) : Bool :=
  match s.slots[n] with
  | some x => x.st == .queued && x.urgent == urgent
  | none => false

/-- Whether a slot is ABORTING and off the link. -/
def State.isAbortWaiting (s : State) (n : SlotNo) : Bool :=
  match s.slotState n with
  | some (.aborting _ _ none) => true
  | _ => false

/-- Whether a slot is ABORTING and on the link. -/
def State.isAbortOnLink (s : State) (n : SlotNo) : Bool :=
  match s.slotState n with
  | some (.aborting _ _ (some _)) => true
  | _ => false

/-- Whether a slot is PARKED(POOL). -/
def State.isPoolParked (s : State) (n : SlotNo) : Bool :=
  match s.slotState n with
  | some (.parkedPool _) => true
  | _ => false

/-- Whether a slot is PARKED(STATION). -/
def State.isStationParked (s : State) (n : SlotNo) : Bool :=
  match s.slotState n with
  | some (.parkedStation _ _) => true
  | _ => false

/-- Whether a slot is RECALLED. -/
def State.isRecalled (s : State) (n : SlotNo) : Bool :=
  match s.slotState n with
  | some (.recalled _ _) => true
  | _ => false

/-- Whether a slot is CONNECTED. -/
def State.isConnected (s : State) (n : SlotNo) : Bool :=
  match s.slotState n with
  | some (.connected _ _ _) => true
  | _ => false

/-- A list holds exactly the slots of a property, each once. -/
abbrev holdsExactly (l : List SlotNo) (p : SlotNo → Bool) : Prop :=
  l.Nodup ∧ ∀ n : SlotNo, n ∈ l ↔ p n = true

/-- Each list of the Link Arbiter and the deadline list holds exactly the slots of its state, each once (R88, R112
to R115). -/
abbrev State.listsFit (s : State) : Prop :=
  holdsExactly s.arb.level1 (s.isQueued true) ∧ holdsExactly s.arb.level0 (s.isQueued false) ∧
  holdsExactly s.arb.abortList s.isAbortWaiting ∧ holdsExactly s.arb.poolList s.isPoolParked ∧
  holdsExactly s.arb.recallList s.isRecalled ∧ holdsExactly s.park.deadlines s.isStationParked

/-- Whether a slot is the one the link operation is about: the connected slot, the slot visited, or the slot bound
to the cleanup entry being served. -/
def LinkOp.concerns (op : LinkOp) (n : SlotNo) : Bool :=
  match op with
  | .exchange c => c.slot == n
  | .abortVisit m _ => m == n
  | .poll w =>
    match w.phase, w.cleanup with
    | .cleaning, e :: _ => e.slot == some n
    | _, _ => false
  | _ => false

/-- Whether a link operation is an exchange. -/
def LinkOp.isExchange : LinkOp → Bool
  | .exchange _ => true
  | _ => false

/-- A slot is CONNECTED exactly while the exchange on the link is its own, and is ABORTING on the link exactly while
an abort visit or a cleanup serves it (R21, R22, R43). -/
abbrev State.linkFits (s : State) : Prop :=
  ∀ n : SlotNo,
    s.isConnected n = (s.link.op.isExchange && s.link.op.concerns n) ∧
    s.isAbortOnLink n = (!s.link.op.isExchange && s.link.op.concerns n)

/-- A tag of a station is bound to a slot exactly while that slot holds it (R100, R101). -/
abbrev State.tagsFit (s : State) : Prop :=
  ∀ (n : SlotNo) (a : StationNo) (t : Tag),
    s.stations[a].tagMap[t] = some n ↔ ∃ x ∈ s.slots[n], x.station = a ∧ x.st.tag? = some t

/-- An entry of the cleanup list that is bound names an ABORTING slot that holds its tag (R108). -/
abbrev State.cleanupFits (s : State) : Prop :=
  ∀ w, s.link.op = .poll w → ∀ e ∈ w.cleanup, ∀ n, e.slot = some n →
    s.stations[e.station].tagMap[e.tag] = some n ∧ (s.isAbortWaiting n || s.isAbortOnLink n) = true

/-- The frames the head may be sending in a phase of a connection (R43 to R68). -/
def Phase.sends (p : Phase) (k : FrameKind) : Bool :=
  match p with
  | .opening => k == .call || k == .resume
  | .sending => k == .data
  | .awaiting => k == .ack
  | .closing => k == .ack
  | .abortSent => k == .abort

/-- The head holds the turn and is sending a frame of a kind. -/
def LinkEngine.headSends (l : LinkEngine) (ok : FrameKind → Bool) : Bool :=
  l.turn == .head && l.replyTimer == none &&
    (match l.sending with
     | some f => ok f.kind
     | none => false)

/-- The head is sending a frame of a kind to a station. -/
def LinkEngine.sendsTo (l : LinkEngine) (a : StationNo) (ok : FrameKind → Bool) : Bool :=
  l.headSends ok &&
    (match l.sending with
     | some f => f.body.address == addressOf a
     | none => false)

/-- A station holds the turn and its reply timer runs. -/
def LinkEngine.heldBy (l : LinkEngine) (a : StationNo) : Bool :=
  l.turn == .station a && l.replyTimer.isSome && l.sending == none && !l.lateOpen

/-- Nobody holds the turn, no frame is being sent and no reply timer runs. -/
def LinkEngine.quiet (l : LinkEngine) : Bool :=
  l.turn == .nobody && l.replyTimer == none && l.sending == none && !l.lateOpen

/-- A reply slot is open for the first station of a list. -/
def LinkEngine.slotOpen (l : LinkEngine) (left : List StationNo) : Bool :=
  l.replyTimer == none && l.sending == none && !l.lateOpen &&
    (match l.turn, left with
     | .replySlot a, b :: _ => a == b
     | _, _ => false)

/-- Whether a phase is one an op has: a CONTROL exchange has no data phase (R51). -/
def Phase.of (p : Phase) (op : Op) : Bool :=
  match p with
  | .opening => true
  | .abortSent => true
  | .sending => op == .write
  | .awaiting => op != .control
  | .closing => op != .control

/-- The turn holder, the frame being sent, its address and the reply timer agree with the link operation and with the
station it serves (R31, R35, R36): no operation ever stands with nothing to end its wait. -/
def State.turnFits (s : State) : Bool :=
  match s.link.op with
  | .idle => s.link.quiet
  | .resetBreak => s.link.quiet
  | .resetQuiet => s.link.quiet
  | .parking => s.link.headSends (· == .parked)
  | .exchange c =>
    (c.abortSent == (c.phase == .abortSent)) &&
      (match s.slots[c.slot] with
       | some x =>
         c.phase.of x.op &&
           (s.link.sendsTo x.station c.phase.sends || (s.link.heldBy x.station && c.phase != .sending))
       | none => false)
  | .abortVisit n _ =>
    match s.slots[n] with
    | some x => s.link.sendsTo x.station (· == .abort) || s.link.heldBy x.station
    | none => false
  | .poll w =>
    match w.phase, w.cleanup with
    | .sending, [] => s.link.headSends (· == .poll)
    | .listening, _ => s.link.slotOpen w.left
    | .cleaning, e :: _ => s.link.sendsTo e.station (· == .abort) || s.link.heldBy e.station
    | _, _ => false

/-- Slots, lists, tags and the link agree with one another. -/
abbrev State.consistent (s : State) : Prop := s.listsFit ∧ s.linkFits ∧ s.tagsFit ∧ s.cleanupFits ∧ s.turnFits = true

/-- The deadline list stands in ascending remaining time, and every remaining time is 1 to 65535 (R88). -/
abbrev State.deadlinesFit (s : State) : Prop :=
  (s.park.deadlines.Pairwise fun n m => s.remaining n ≤ s.remaining m) ∧
  ∀ n ∈ s.park.deadlines, 1 ≤ s.remaining n ∧ s.remaining n ≤ 65535

/-! ### Written-out states and situations that statements use -/

/-- The arbiter makes no choice: LINK_ENABLE is clear, or the link is not idle (R116, R123, R124). -/
abbrev State.arbiterRests (s : State) : Prop := s.host.linkEnable = false ∨ s.link.op ≠ .idle

/-- The Link Engine with no operation. -/
def idleLink : LinkEngine :=
  { op := .idle, turn := .nobody, replyTimer := none, sending := none, lateOpen := false }

/-- The Link Engine with the head sending a frame. -/
def sendingLink (op : LinkOp) (f : Frame) : LinkEngine :=
  { op := op, turn := .head, replyTimer := none, sending := some f, lateOpen := false }

/-- The state once an expiry of the reply timer or of a reply slot has been taken: while the head sends the frame that
follows, a station frame received together with the expiry may still be taken (R36, log entry 27). -/
def State.afterExpiry (s : State) : State := { s with link := { s.link with lateOpen := s.link.sending.isSome } }

/-! The frames the head sends, byte by byte (R31, R41, section 11.1). -/

/-- A frame the head sends in an exchange. -/
def frameTo (k : FrameKind) (a : StationNo) (t : Tag) (seq : Seq) (turn last : Bool) (payload : List Byte) : Frame :=
  { kind := k
    body := { address := addressOf a, tag := t, seq := seq, turn := turn, last := last, payload := payload } }

/-- ABORT. -/
def abortOf (a : StationNo) (t : Tag) : Frame := frameTo .abort a t 0 true false []

/-- The parameter bytes an exchange sends: the first count bytes of a CONTROL. -/
def paramsOf (x : Exchange) : List Byte := if x.op = Op.control then x.params.take x.count else []

/-- CALL: op, count, unit address, and the parameters of a CONTROL. -/
def callOf (x : Exchange) (t : Tag) : Frame :=
  frameTo .call x.station t 0 true false
    ((match x.op with | .read => 1 | .write => 2 | .control => 3) ::
      BitVec.ofNat 8 x.count :: BitVec.ofNat 8 (x.count / 256) ::
      x.unitAddress.extractLsb' 0 8 :: x.unitAddress.extractLsb' 8 8 ::
      x.unitAddress.extractLsb' 16 8 :: x.unitAddress.extractLsb' 24 8 :: paramsOf x)

/-- RESUME: the done count as offset, and the parameters of a CONTROL. -/
def resumeOf (x : Exchange) (t : Tag) : Frame :=
  frameTo .resume x.station t 0 true false
    (BitVec.ofNat 8 x.doneCount :: BitVec.ofNat 8 (x.doneCount / 256) :: paramsOf x)

/-- ACK with a credit. -/
def ackOf (x : Exchange) (t : Tag) (seq : Seq) (credit : Nat) : Frame :=
  frameTo .ack x.station t seq true false [BitVec.ofNat 8 credit]

/-- PARKED: the done count as offset, and the reason, 1 STATION or 2 POOL. -/
def parkedOf (x : Exchange) (t : Tag) (reason : Byte) : Frame :=
  frameTo .parked x.station t 0 false false [BitVec.ofNat 8 x.doneCount, BitVec.ofNat 8 (x.doneCount / 256), reason]

/-- The bytes of frame `j` of a WRITE, counted from offset 0: 64 of them, or what remains (R41). -/
def writeBytes (m : Memory) (x : Exchange) (j : Nat) : List Byte :=
  (List.range (min 64 (x.count - 64 * j))).map fun i => Memory.chainByte m x.chain (64 * j + i)

/-- The DATA frame `j` of a WRITE; LAST is set on the last frame of the exchange (R41, R53). -/
def dataOf (m : Memory) (x : Exchange) (t : Tag) (seq : Seq) (j : Nat) (turn : Bool) : Frame :=
  frameTo .data x.station t seq turn (j + 1 == frames x.count) (writeBytes m x j)

/-- The state an entry of a slot into DONE leaves, each effect of R25 written out: the completion fields and event
unread, the reservations of a connected READ given up, the tag freed, the lists left, its cleanup entries unbound
(R108), and the completion record. -/
def State.afterDone (s : State) (n : SlotNo) (x : Exchange) (f : FinalStatus) (status : Option Byte)
    (result : List Byte) : State :=
  { s with
    slots := s.slots.set n (some { x with st := .done f status true result })
    stage :=
      if x.isConnectedRead then { s.stage with free := s.stage.reserved ++ s.stage.free, reserved := [] } else s.stage
    stations :=
      match x.st.tag? with
      | some t =>
        s.stations.set x.station
          { s.stations[x.station] with tagMap := s.stations[x.station].tagMap.set t none }
      | none => s.stations
    arb :=
      { s.arb with
        level1 := s.arb.level1.filter (· ≠ n), level0 := s.arb.level0.filter (· ≠ n)
        abortList := s.arb.abortList.filter (· ≠ n), poolList := s.arb.poolList.filter (· ≠ n)
        recallList := s.arb.recallList.filter (· ≠ n) }
    park := { s.park with deadlines := s.park.deadlines.filter (· ≠ n) }
    link :=
      { s.link with
        op := match s.link.op with
          | .poll w =>
            .poll { w with
              cleanup := w.cleanup.map fun e => if e.slot = some n then { e with slot := none } else e }
          | op => op }
    events :=
      { s.events with
        records := s.events.records ++
          [{ source := .slot n, kind := .completion, detail := .status f, value := some x.doneCount,
             stationStatus := status, repeats := 0, alsoSeen := 0,
             timestamp := s.park.timebase.extractLsb' 0 16 }] } }

/-- HOST_FAULT after one more misuse: the first records its cause with count 0, a later one raises the count up to
255 (R139). -/
def misused (f : Option (StageFault × Nat)) (cause : StageFault) : Option (StageFault × Nat) :=
  match f with
  | none => some (cause, 0)
  | some (first, n) => some (first, if n < 255 then n + 1 else n)

/-- The state with RESULT holding a code and a value (R174). -/
def State.answered (s : State) (code : ResultCode) (value : Nat) : State :=
  { s with host := { s.host with resultCode := code, resultValue := BitVec.ofNat 8 value } }

/-- The records after an occurrence at a station or at the link: a new one at the tail, or a fold into the one its
source has, each written out (R160, R161). -/
def recordsAfter (records : List EventRecord) (src : Source) (k : EventKind) (d : Detail) (mark : BitVec 7)
    (timebase : BitVec 32) : List EventRecord :=
  if ∃ r ∈ records, r.source = src then
    records.map fun r =>
      if r.source = src then
        { r with repeats := if r.repeats < 255 then r.repeats + 1 else r.repeats
                 alsoSeen := r.alsoSeen ||| mark
                 detail := if k = .attention then d else r.detail }
      else r
  else
    records ++ [{ source := src, kind := k, detail := d, value := none, stationStatus := none, repeats := 0,
                  alsoSeen := 0, timestamp := timebase.extractLsb' 0 16 }]

/-- The also-seen mark of a link fault, from bit 4: CRC, STRAY, ORPHAN (section 11.4). -/
def faultMark (c : LinkFault) : BitVec 7 :=
  match c with
  | .crc => 0x10
  | .stray => 0x20
  | .orphan => 0x40

/-- The state after a link fault and nothing else (R29, R159). -/
def State.faulted (s : State) (c : LinkFault) : State :=
  { s with events := { s.events with
      records := recordsAfter s.events.records .link .fault (.cause c) (faultMark c) s.park.timebase } }

/-- The state after a damaged or stray frame: a link fault, and no second frame can have been received together with the
last expiry (R29, R30, log entry 27). -/
def State.badFrameTaken (s : State) (c : LinkFault) : State :=
  { s.faulted c with link := { s.link with lateOpen := false } }

/-- The state after a frame seen from a station, with its record (R93). -/
def State.seen (s : State) (a : StationNo) : State :=
  { s with
    stations := s.stations.set a
      { s.stations[a] with
        missCount := 0
        state := match s.stations[a].state with
          | .offline => .offline
          | _ => .online }
    events :=
      if s.stations[a].state = .silent then
        { s.events with
          records := recordsAfter s.events.records (.station a) .online .absent 0x01 s.park.timebase }
      else s.events }

/-- The state after a miss counted against a station, with its record (R94). -/
def State.missed (s : State) (a : StationNo) : State :=
  let falls := 2 ≤ s.stations[a].missCount ∧ (s.stations[a].state = .unknown ∨ s.stations[a].state = .online)
  { s with
    stations := s.stations.set a
      { s.stations[a] with
        missCount := if s.stations[a].missCount < 3 then s.stations[a].missCount + 1 else s.stations[a].missCount
        state := if falls then .silent else s.stations[a].state }
    events :=
      if falls then
        { s.events with
          records := recordsAfter s.events.records (.station a) .silent .absent 0x02 s.park.timebase }
      else s.events }

/-- A slot ABORTING off the link, condemned with a pending status: its tag is kept, it has left its lists, and it
stands at the tail of the abort-visit list (R13, R79, R90). -/
def State.condemnedTo (s : State) (n : SlotNo) (x : Exchange) (t : Tag) (f : Fatal) : State :=
  { s with
    slots := s.slots.set n (some { x with st := .aborting t f none })
    arb :=
      { s.arb with
        level1 := s.arb.level1.filter (· ≠ n), level0 := s.arb.level0.filter (· ≠ n)
        abortList := s.arb.abortList.filter (· ≠ n) ++ [n], poolList := s.arb.poolList.filter (· ≠ n)
        recallList := s.arb.recallList.filter (· ≠ n) }
    park := { s.park with deadlines := s.park.deadlines.filter (· ≠ n) } }

/-- A slot RECALLED at the tail of the recall list (R78, R80). -/
def State.recalledTo (s : State) (n : SlotNo) (x : Exchange) (t : Tag) (r : ParkReason) : State :=
  { s with
    slots := s.slots.set n (some { x with st := .recalled t r })
    arb :=
      { s.arb with
        level1 := s.arb.level1.filter (· ≠ n), level0 := s.arb.level0.filter (· ≠ n)
        abortList := s.arb.abortList.filter (· ≠ n), poolList := s.arb.poolList.filter (· ≠ n)
        recallList := s.arb.recallList.filter (· ≠ n) ++ [n] }
    park := { s.park with deadlines := s.park.deadlines.filter (· ≠ n) } }

/-- The abort phase of a connection begins: pending status, retry count 0, reservations returned, ABORT (R68). -/
def State.abortPhaseOf (s : State) (c : Connection) (x : Exchange) (t : Tag) (f : Fatal) : State :=
  { s with
    slots := s.slots.set c.slot (some { x with st := .connected t 0 (some f) })
    stage := { s.stage with free := s.stage.reserved ++ s.stage.free, reserved := [] }
    link := sendingLink (.exchange { c with phase := .abortSent, abortSent := true }) (abortOf x.station t) }

/-- A WRITE burst begins at the done count, with a retry count: the lesser of the station credit and the frames
remaining, its first frame being sent (R53). -/
def State.burstFrom (s : State) (c : Connection) (x : Exchange) (t : Tag) (r credit : Nat) : State :=
  let n := min credit (frames x.count - x.doneCount / 64)
  { s with
    slots := s.slots.set c.slot (some { x with st := .connected t r none })
    link := sendingLink (.exchange { c with phase := .sending, burst := n, nextSend := c.oldest })
      (dataOf s.stage.mem x t c.oldest (x.doneCount / 64) (n == 1)) }

/-- Stage Memory with exactly `credit` pages reserved, as far as the free list allows (R59, R130). -/
def StageMem.withReserved (g : StageMem) (credit : Nat) : StageMem :=
  { g with free := (g.reserved ++ g.free).drop credit, reserved := (g.reserved ++ g.free).take credit }

/-- The state after a READ grant point taken with a retry count: ACK with the credit of R59 while data remains, a park
for POOL when that credit is 0, and ACK with credit 0 and CLOSING when no data remains (R59, R60, R64, R74). -/
def State.grantOf (s : State) (c : Connection) (x : Exchange) (t : Tag) (r : Nat) : State :=
  let credit := min s.stations[x.station].creditMax
    (min (frames x.count - x.doneCount / 64) (s.stage.free.length + s.stage.reserved.length))
  let kept := some { x with st := .connected t r none }
  if c.dataEnded = false ∧ x.doneCount < x.count then
    if credit = 0 then
      { s with
        slots := s.slots.set c.slot (some { x with st := .parkedPool t })
        stage := s.stage.withReserved 0
        arb := { s.arb with poolList := s.arb.poolList ++ [c.slot] }
        link := sendingLink .parking (parkedOf x t 2) }
    else
      { s with
        slots := s.slots.set c.slot kept
        stage := s.stage.withReserved credit
        link := sendingLink
          (.exchange { c with phase := .awaiting, burst := credit, progress := x.doneCount, discarding := false })
          (ackOf x t c.nextExpected credit) }
  else
    { s with
      slots := s.slots.set c.slot kept
      stage := s.stage.withReserved 0
      link := sendingLink
        (.exchange { c with phase := .closing, burst := 0, progress := x.doneCount, discarding := false })
        (ackOf x t c.nextExpected 0) }

/-- The slot a cleanup entry is bound to is taken up: it has left its lists, and is on the link with retry count 0
(R22, R109). -/
def State.takenUp (s : State) (slot : Option SlotNo) : State :=
  match slot with
  | none => s
  | some n =>
    match s.slots[n] with
    | none => s
    | some x =>
      match x.st with
      | .aborting t f _ =>
        { s with
          slots := s.slots.set n (some { x with st := .aborting t f (some 0) })
          arb :=
            { s.arb with
              level1 := s.arb.level1.filter (· ≠ n), level0 := s.arb.level0.filter (· ≠ n)
              abortList := s.arb.abortList.filter (· ≠ n), poolList := s.arb.poolList.filter (· ≠ n)
              recallList := s.arb.recallList.filter (· ≠ n) }
          park := { s.park with deadlines := s.park.deadlines.filter (· ≠ n) } }
      | _ => s

/-- A poll window goes on with the cleanup entries that are left: the ABORT of the first is being sent, or, when none
is left, the window has ended and the arbiter has chosen (R109). -/
def State.cleanupGoesOn (s : State) (w : PollWindow) (left : List CleanupEntry) : State :=
  match left with
  | [] => { s with link := idleLink }.choose
  | e :: es =>
    { s.takenUp e.slot with
      link := sendingLink (.poll { w with phase := .cleaning, cleanup := e :: es }) (abortOf e.station e.tag) }

/-- The next reply slot of a poll window is open (R105). -/
def nextSlotLink (w : PollWindow) (b : StationNo) (rest : List StationNo) (replyTime : Byte) : LinkEngine :=
  { op := .poll { w with phase := .listening, left := b :: rest, slotTime := replyTime }
    turn := .replySlot b, replyTimer := none, sending := none, lateOpen := false }

/-- A reply slot has ended with the slots of `rest` to come: the next one is open, with REPLY_TIME as it stands, or, after
the last, the cleanup has begun or the window has ended (R105, R109). -/
def State.slotGoesOn (s : State) (w : PollWindow) (rest : List StationNo) : State :=
  match rest with
  | b :: more => { s with link := nextSlotLink w b more s.host.replyTime }
  | [] => s.cleanupGoesOn { w with left := [] } w.cleanup

/-- The reply slot of a station is open, those of `rest` follow it, and the head sends nothing. -/
abbrev State.slotOpenFor (s : State) (w : PollWindow) (a : StationNo) (rest : List StationNo) : Prop :=
  s.host.held = false ∧ s.link.op = .poll w ∧ s.link.turn = .replySlot a ∧ s.link.sending = none ∧ w.left = a :: rest

/-- A poll window whose cleanup list has one entry more at its tail (R108). -/
def PollWindow.withEntry (w : PollWindow) (e : CleanupEntry) : PollWindow := { w with cleanup := w.cleanup ++ [e] }

/-- The state once the presence of a well-formed REPLY has been taken: a frame seen, and backoff cleared (R93, R106). -/
def State.presenceTaken (s : State) (a : StationNo) : State :=
  { s.seen a with stations := (s.seen a).stations.set a { (s.seen a).stations[a] with backoff := false } }

/-- The state once the attention part of a REPLY has been taken, if it has one: the mark is set and the report passed on
(R96). -/
def State.attended (s : State) (a : StationNo) (code : Option Byte) : State :=
  match code with
  | none => s
  | some b =>
    { s with
      stations := s.stations.set a { s.stations[a] with attention := true }
      events := { s.events with
        records := recordsAfter s.events.records (.station a) .attention (.code b) 0x04 s.park.timebase } }

/-- What follows the flags, or the recall, of a REPLY by its attention flag: one code, or nothing (R32). -/
def attentionIs (flags : Byte) (tail : List Byte) (code : Option Byte) : Prop :=
  (flags.getLsbD 1 = false ∧ tail = [] ∧ code = none) ∨ (flags.getLsbD 1 = true ∧ ∃ b, tail = [b] ∧ code = some b)

/-- The slots of `due`, the head of the deadline list, have expired, in list order: each is ABORTING with pending
PARK_EXPIRED and its tag, at the tail of the abort-visit list, and `later` is what is left of the deadline list (R90). -/
def State.expiredTo (s : State) (due later : List SlotNo) : State :=
  { s with
    slots := Vector.ofFn fun n : SlotNo =>
      match s.slots[n] with
      | some x =>
        match x.st with
        | .parkedStation t _ => if n ∈ due then some { x with st := .aborting t .parkExpired none } else some x
        | _ => some x
      | none => none
    arb := { s.arb with abortList := s.arb.abortList ++ due }
    park := { s.park with deadlines := later } }

/-- The poll interval timer has expired: poll-due is set, and the timer is loaded from POLL_INTERVAL (R102). -/
def State.pollTimeOver (s : State) : State :=
  { s with arb := { s.arb with pollDue := true, pollTimer := s.host.pollInterval.toNat } }

/-- A poll is eligible at an idle link with no slot recalled: poll-due is set, some station is not OFFLINE, and one of the
reasons of R104 holds. -/
abbrev State.pollCalledFor (s : State) : Prop :=
  s.arb.pollDue = true ∧ (∃ a : StationNo, s.stations[a].state ≠ .offline) ∧
  ((∃ n : SlotNo, s.isStationParked n = true) ∨
    (∃ a : StationNo, s.stations[a].state = .silent ∨ s.stations[a].backoff = true) ∨
    s.host.pollAlways = true ∨ s.arb.pollRequested = true)

/-- No candidate of the first three ranks exists, and no poll is eligible (R117). -/
abbrev State.onlyIssuePicks (s : State) : Prop :=
  s.arb.abortList = [] ∧ s.arb.recallList = [] ∧ (s.arb.poolList = [] ∨ s.stage.free = []) ∧ ¬ s.pollCalledFor

/-- The final status with which STATION_OFF for a station ends a slot at once, if it does: a slot of that station that
is QUEUED, PARKED or RECALLED, or ABORTING off the link (R24). -/
def State.lostBy (s : State) (a : StationNo) (n : SlotNo) : Option FinalStatus :=
  match s.slots[n] with
  | some x =>
    if x.station = a then
      match x.st with
      | .queued => some .stationLost
      | .parkedStation _ _ => some .stationLost
      | .parkedPool _ => some .stationLost
      | .recalled _ _ => some .stationLost
      | .aborting _ f none => some f.final
      | _ => none
    else none
  | none => none

/-- Whether a slot holds no tag. -/
def State.tagFree (s : State) (n : SlotNo) : Bool :=
  match s.slots[n] with
  | some x => x.st.tag?.isNone
  | none => true

/-- Whether a queued slot can be picked: its station is UNKNOWN or ONLINE, is not in backoff, and holds fewer tags than
its depth (R119). -/
def State.mayBeCalled (s : State) (n : SlotNo) : Bool :=
  match s.slots[n] with
  | some x =>
    decide ((s.stations[x.station].state = .unknown ∨ s.stations[x.station].state = .online) ∧
      s.stations[x.station].backoff = false ∧
      ((List.finRange 8).filter fun t => s.stations[x.station].tagMap[t].isSome).length < s.stations[x.station].depth)
  | none => false

/-- The exchange of a CONNECTED slot is on the link, ABORT has not been sent, and its station holds the turn. -/
abbrev State.awaitsStation (s : State) (c : Connection) (x : Exchange) (t : Tag) (r : Nat) (p : Option Fatal) : Prop :=
  s.host.held = false ∧ s.link.op = .exchange c ∧ s.link.turn = .station x.station ∧ s.link.sending = none ∧
  s.slots[c.slot] = some x ∧ x.st = .connected t r p ∧ c.abortSent = false

/-- The wait after the ABORT of the first entry of a cleanup: its station holds the turn (R109). -/
abbrev State.cleanupAwaits (s : State) (w : PollWindow) (e : CleanupEntry) (es : List CleanupEntry) : Prop :=
  s.host.held = false ∧ s.link.op = .poll w ∧ w.cleanup = e :: es ∧ s.link.turn = .station e.station ∧
  s.link.sending = none

/-- The connection record at a grant, every field written out (R44, R170). -/
def openedConnection (n : SlotNo) (x : Exchange) (retryLimit : Nat) (resumed : Bool) : Connection :=
  { slot := n, phase := .opening, base := x.doneCount, oldest := 0, nextSend := 0, nextExpected := 0, burst := 0
    stationCredit := none, dataEnded := x.op == Op.read && x.doneCount == x.count, progress := x.doneCount
    abortSent := false, retryLimit := retryLimit, resumed := resumed, discarding := false }

/-- A valid park point of a DEFER (R49, R56, R63). -/
def isParkPoint (c : Connection) (x : Exchange) (o : Nat) : Prop :=
  (c.phase = .opening ∧ o = x.doneCount) ∨
  (c.phase = .awaiting ∧ x.op = Op.read ∧ c.dataEnded = false ∧ o = x.doneCount) ∨
  (c.phase = .awaiting ∧ x.op = Op.write ∧ x.doneCount ≤ o ∧ o ≤ min x.count (x.doneCount + 64 * c.burst) ∧
    (o % 64 = 0 ∨ o = x.count))

/-- The protocol errors of a connection with no pending status, as the table of R66 lists them with the rules it names;
`reserved` is the reservation list, empty when the burst has filled its grant (R61). -/
def isProtocolError (c : Connection) (x : Exchange) (reserved : List Page) : Instr → Prop
  | .acceptReceived f =>
    c.phase ≠ .opening ∨ x.op = Op.control ∨ f.payload.length ≠ 1 ∨
      (x.op = Op.write ∧ ∃ credit, f.payload = [credit] ∧ (credit = 0 ∨ 5 ≤ credit.toNat))
  | .refuseReceived f => c.phase ≠ .opening ∨ f.payload.length ≠ 1 ∨ f.payload = [0]
  | .deferReceived f =>
    f.payload.length ≠ 2 ∨ ∃ low high, f.payload = [low, high] ∧ ¬ isParkPoint c x (high ++ low).toNat
  | .closeReceived f => f.payload.length = 0 ∨ (if x.op = Op.control then 9 else 1) < f.payload.length
  | .ackReceived f =>
    c.phase ≠ .awaiting ∨ x.op ≠ Op.write ∨ f.payload.length ≠ 1 ∨
      ∃ credit, f.payload = [credit] ∧
        (5 ≤ credit.toNat ∨ c.burst < (f.seq - c.oldest).toNat ∨
          (credit = 0 ∧ x.doneCount + 64 * (f.seq - c.oldest).toNat < x.count))
  | .dataReceived f =>
    c.phase ≠ .awaiting ∨ x.op ≠ Op.read ∨
      (f.seq = c.nextExpected ∧ c.discarding = false ∧
        (f.payload.length = 0 ∨ (f.last = false ∧ f.payload.length ≠ 64) ∨
          x.count < x.doneCount + f.payload.length ∨ c.dataEnded = true ∨ reserved = []))
  | .replyReceived _ => True
  | .headOnlyKindReceived _ _ => True
  | _ => False

end Sys2Proof.Machine

namespace Sys2Proof

/-- A frame comes from the turn holder with the exchange's tag and a length in range (R30). -/
abbrev FrameBody.fits (f : FrameBody) (x : Machine.Exchange) (t : Tag) : Prop :=
  f.address = addressOf x.station ∧ f.tag = t ∧ f.payload.length ≤ 64

/-- A received frame comes from a station with a tag and a length in range; the tag of a REPLY is not checked (R30, R144,
R150). -/
abbrev Received.fitsFor (f : Received) (i : Instr) (a : StationNo) (t : Tag) : Prop :=
  f.address = addressOf a ∧ f.payload.length ≤ 64 ∧
  (f.tag = t ∨ i = .replyReceived f)

/-- A frame can be taken: the head sends nothing, or sends what followed an expiry together with which the frame was
received; and no link reset runs (R36, R37). -/
abbrev Machine.State.hears (s : Machine.State) (withExpiry : Bool) : Prop :=
  (s.link.sending = none ∨ (withExpiry = true ∧ s.link.lateOpen = true)) ∧
  s.link.op ≠ .resetBreak ∧ s.link.op ≠ .resetQuiet

end Sys2Proof
end

