-- ==== Sys2Proof/Certificates/Slice0/Obligations.lean ====
section
/-!
DEFINITION. The statements about the model, for the provers. Each name says what its statement says; each docstring
names the rules of spec/ it comes from.
-/

open Sys2Proof Sys2Proof.Machine

/-! ### The machine as a whole -/

/-- A step takes the command at the front of the queue, and is that command's effect with the rest of the queue left
waiting; on an empty queue the part idles (log entries 6 and 7: the queue is the model's own). -/
def Obligations.StepTakesFrontCommand : Prop :=
  (∀ (c : Instr) (rest : List Instr) (s : State),
    Sys2Proof.Machine.step { s with pending := c :: rest } =
      Sys2Proof.Machine.exec c { s with pending := rest }) ∧
  ∀ s : State, Sys2Proof.Machine.step { s with pending := [] } = .next { s with pending := [] }

/-- Every command and event is taken in every state: none faults and none is refused by the model (R168, R174). -/
def Obligations.EveryCommandAnswersNext : Prop :=
  ∀ (c : Instr) (s : State), ∃ t, Sys2Proof.Machine.exec c s = .next t

/-- While RESET_N is asserted no host access is taken, and the five reads that are rows return 0 (R168, R178). That no
timer event and no link event is taken either, so that only RESET_ASSERT and RESET_RELEASE act, is the model's choice
(log entry 16). -/
def Obligations.HeldPartTakesNothing : Prop :=
  ∀ (c : Instr) (s : State), s.host.held = true →
    (c = .resetAssert ∨ (∃ strap, c = .resetRelease strap)) ∨
    ((c = .stageDataRead ∨ c = .event0Read ∨ c = .slotView0Read ∨ c = .stationView0Read ∨ c = .timebaseLoRead) ∧
      Sys2Proof.Machine.exec c s = .next { s with host := { s.host with readData := 0 } }) ∨
    ((c ≠ .stageDataRead ∧ c ≠ .event0Read ∧ c ≠ .slotView0Read ∧ c ≠ .stationView0Read ∧ c ≠ .timebaseLoRead) ∧
      Sys2Proof.Machine.exec c s = .next s)

/-- The values the spec gives every block for hardware reset (R91, R111, R125, R141, R156, R167, R179). -/
def Obligations.ResetValues : Prop :=
  (State.reset.host.linkEnable = false ∧ State.reset.host.pollAlways = false ∧
    State.reset.host.replyTime = 64 ∧ State.reset.host.retryLimit = 3 ∧ State.reset.host.pollInterval = 10 ∧
    State.reset.host.intSlot = false ∧ State.reset.host.intStation = false ∧ State.reset.host.intLink = false ∧
    State.reset.host.intHostFault = false ∧ State.reset.host.hostFault = none ∧
    (∀ i : Fin 4, State.reset.host.args[i] = 0) ∧
    State.reset.host.resultCode = .ok ∧ State.reset.host.resultValue = 0 ∧
    State.reset.host.slotSelect = 0 ∧ State.reset.host.stationSelect = 0 ∧
    State.reset.host.slotView = none ∧ State.reset.host.stationView = none ∧
    State.reset.host.stageSlot = 0 ∧ State.reset.host.stageOffset = 0 ∧ State.reset.host.timebaseLatch = 0) ∧
  (∀ n : SlotNo, State.reset.slots[n] = none) ∧
  (State.reset.stage.free = List.finRange 256 ∧ State.reset.stage.reserved = []) ∧
  (∀ a : StationNo, State.reset.stations[a].state = .unknown ∧ State.reset.stations[a].depth = 1 ∧
    State.reset.stations[a].creditMax = 2 ∧ State.reset.stations[a].parkLimit = 1000 ∧
    State.reset.stations[a].missCount = 0 ∧ State.reset.stations[a].backoff = false ∧
    State.reset.stations[a].attention = false ∧ ∀ t : Tag, State.reset.stations[a].tagMap[t] = none) ∧
  (State.reset.arb.level1 = [] ∧ State.reset.arb.level0 = [] ∧ State.reset.arb.abortList = [] ∧
    State.reset.arb.poolList = [] ∧ State.reset.arb.recallList = [] ∧ State.reset.arb.fairness = 0 ∧
    State.reset.arb.pollTimer = 10 ∧ State.reset.arb.pollDue = false ∧ State.reset.arb.pollRequested = false) ∧
  State.reset.link = { op := .resetBreak, turn := .nobody, replyTimer := none, sending := none, lateOpen := false } ∧
  State.reset.park = { timebase := 0, deadlines := [] } ∧
  State.reset.events = { records := [], snapshot := none } ∧
  State.reset.readRegister 0x00 = 0x7180 ∧ State.reset.readRegister 0x05 = 4 ∧
  State.reset.readRegister 0x06 = 256 ∧ State.reset.readRegister 0x07 = 0

/-! ### The register window -/

/-- A write of CONTROL sets both marks to the values written, whichever of its two rows it is; a write that changes a
mark lets the arbiter choose, one that leaves both does not; and a resting arbiter changes nothing (R116, R123,
R169). That both rows are whole writes of CONTROL is the model's choice (log entry 12). -/
def Obligations.ControlWriteSetsBothMarks : Prop :=
  ∀ (w : Word) (s : State), s.host.held = false →
    let t : State := { s with host := { s.host with linkEnable := w.getLsbD 0, pollAlways := w.getLsbD 1 } }
    let answer := if w.getLsbD 0 = s.host.linkEnable ∧ w.getLsbD 1 = s.host.pollAlways then t else t.choose
    Sys2Proof.Machine.exec (.linkEnableWrite w) s = .next answer ∧
    Sys2Proof.Machine.exec (.pollAlwaysWrite w) s = .next answer ∧
    (t.arbiterRests → answer = t)

/-- LINK_CONFIG stores each value after its clamping and changes nothing else (R170). INT_ENABLE takes its four enables
from bits 0 to 3 and changes nothing else, and the interrupt line then stands exactly while a queued class or
HOST_FAULT has its enable set (R166, R171). -/
def Obligations.LinkConfigAndIntEnableWrites : Prop :=
  (∀ (w : Word) (s : State), s.host.held = false →
    Sys2Proof.Machine.exec (.linkConfigWrite false w) s =
      .next { s with host := { s.host with
        replyTime := if w.toNat % 256 < 8 then 8 else BitVec.ofNat 8 w.toNat
        retryLimit := BitVec.ofNat 3 (w.toNat / 256) } } ∧
    Sys2Proof.Machine.exec (.linkConfigWrite true w) s =
      .next { s with host := { s.host with
        pollInterval := if w.toNat % 256 = 0 then 1 else BitVec.ofNat 8 w.toNat } }) ∧
  ∀ (w : Word) (s : State), s.host.held = false → ∃ t,
    Sys2Proof.Machine.exec (.intEnableWrite w) s = .next t ∧
    t = { s with host := { s.host with
      intSlot := w.getLsbD 0, intStation := w.getLsbD 1, intLink := w.getLsbD 2, intHostFault := w.getLsbD 3 } } ∧
    (t.interruptAsserted = true ↔
      (w.getLsbD 0 = true ∧ ∃ r ∈ s.events.records, ∃ n, r.source = .slot n) ∨
      (w.getLsbD 1 = true ∧ ∃ r ∈ s.events.records, ∃ a, r.source = .station a) ∨
      (w.getLsbD 2 = true ∧ ∃ r ∈ s.events.records, r.source = .link) ∨
      (w.getLsbD 3 = true ∧ s.host.hostFault ≠ none))

/-- HOST_FAULT shows its cause and count; a write with the clear field 1 clears the mark, and one with the clear field
0 changes nothing (R139, R173). -/
def Obligations.HostFaultShowsAndClears : Prop :=
  ∀ (w : Word) (s : State), s.host.held = false →
    Sys2Proof.Machine.exec (.hostFaultClear w) s =
      .next (if w.getLsbD 2 then { s with host := { s.host with hostFault := none } } else s) ∧
    (s.host.hostFault = none → s.readRegister 0x08 = 0 ∧ (s.readRegister 0x05).getLsbD 3 = false) ∧
    ∀ cause n, s.host.hostFault = some (cause, n) → n ≤ 255 →
      (s.readRegister 0x08).toNat % 256 = (match cause with | .state => 1 | .range => 2 | .align => 3) ∧
      (s.readRegister 0x08).toNat / 256 = n ∧ (s.readRegister 0x05).getLsbD 3 = true

/-- The stage cursor: STAGE_SLOT takes 0 to 31 and zeroes the offset, and a larger value is a STAGE_RANGE misuse;
STAGE_OFFSET takes an even value, and an odd one gives the even value below it and a STAGE_ALIGN misuse (R133,
R138, R139). -/
def Obligations.StageCursorWrites : Prop :=
  ∀ (w : Word) (s : State), s.host.held = false →
    (∀ n : SlotNo, w.toNat = n.val → Sys2Proof.Machine.exec (.stageSlotWrite w) s =
      .next { s with host := { s.host with stageSlot := n, stageOffset := 0 } }) ∧
    (32 ≤ w.toNat → Sys2Proof.Machine.exec (.stageSlotWrite w) s =
      .next { s with host := { s.host with hostFault := misused s.host.hostFault .range } }) ∧
    (w.toNat % 2 = 0 → Sys2Proof.Machine.exec (.stageOffsetWrite w) s =
      .next { s with host := { s.host with stageOffset := w } }) ∧
    (w.toNat % 2 = 1 → Sys2Proof.Machine.exec (.stageOffsetWrite w) s =
      .next { s with host := { s.host with
        stageOffset := w - 1, hostFault := misused s.host.hostFault .align } })

/-- A permitted write of STAGE_DATA stores the word's bytes, the high one only when it lies below the count, moves the
offset on by 2 and changes nothing else: to a PREPARED WRITE slot in its page chain, with every other byte of stage
memory unchanged, and to a PREPARED CONTROL slot among its 8 parameter bytes (R133 to R137). -/
def Obligations.StageDataWriteStoresWord : Prop :=
  (∀ (w : Word) (s : State) (x : Exchange) (p : Page) (o : Nat),
    s.host.held = false → s.slots[s.host.stageSlot] = some x → x.op = Op.write → x.st = .prepared →
    s.host.stageOffset.toNat = o → o < x.count → o % 2 = 0 → x.chain[o / 64]? = some p → Memory.wf s.stage.mem →
    ∃ m : Memory,
      Sys2Proof.Machine.exec (.stageDataWrite w) s =
        .next { s with
          stage := { s.stage with mem := m }
          host := { s.host with stageOffset := s.host.stageOffset + 2 } } ∧
      Memory.wf m ∧
      ∀ a : Nat, Memory.readByte m a =
        if a = 64 * p.val + o % 64 then BitVec.ofNat 8 w.toNat
        else if a = 64 * p.val + o % 64 + 1 ∧ o + 1 < x.count then BitVec.ofNat 8 (w.toNat / 256)
        else Memory.readByte s.stage.mem a) ∧
  (∀ (w : Word) (s : State) (x : Exchange) (o : Nat),
    s.host.held = false → s.slots[s.host.stageSlot] = some x → x.op = Op.control → x.st = .prepared →
    s.host.stageOffset.toNat = o → o < x.count → x.count ≤ 8 → x.params.length = 8 →
    ∃ q : List Byte,
      Sys2Proof.Machine.exec (.stageDataWrite w) s =
        .next { s with
          slots := s.slots.set s.host.stageSlot (some { x with params := q })
          host := { s.host with stageOffset := s.host.stageOffset + 2 } } ∧
      q.length = 8 ∧
      ∀ i : Nat, q[i]? =
        if i = o then some (BitVec.ofNat 8 w.toNat)
        else if i = o + 1 ∧ o + 1 < x.count then some (BitVec.ofNat 8 (w.toNat / 256))
        else x.params[i]?)

/-- A read of STAGE_DATA of an area the slot's op and state allow, at an offset below its limit, returns the two bytes
there, the high one 0 at the limit minus 1, and moves the offset on by 2; at or beyond the limit it returns 0 and is
a STAGE_RANGE misuse. Nothing else changes (R133 to R139). -/
def Obligations.StageDataReadReturnsArea : Prop :=
  ∀ (s : State) (x : Exchange) (byteAt : Nat → Byte) (limit o : Nat),
    s.host.held = false → s.slots[s.host.stageSlot] = some x → s.host.stageOffset.toNat = o →
    (x.op = Op.write ∧ limit = x.count ∧ byteAt = Memory.chainByte s.stage.mem x.chain) ∨
    (x.op = Op.read ∧ x.st.isDone = true ∧ limit = x.doneCount ∧ byteAt = Memory.chainByte s.stage.mem x.chain) ∨
    (x.op = Op.control ∧ x.st = .prepared ∧ limit = x.count ∧ byteAt = fun i => x.params.getD i 0) ∨
    (x.op = Op.control ∧ ∃ f st u result, x.st = .done f st u result ∧ limit = result.length ∧
      byteAt = fun i => result.getD i 0) →
    (o < limit → Sys2Proof.Machine.exec .stageDataRead s =
      .next { s with host := { s.host with
        readData := (if o + 1 < limit then byteAt (o + 1) else 0) ++ byteAt o
        stageOffset := s.host.stageOffset + 2 } }) ∧
    (limit ≤ o → Sys2Proof.Machine.exec .stageDataRead s =
      .next { s with host := { s.host with readData := 0, hostFault := misused s.host.hostFault .range } })

/-- A STAGE_DATA access the slot's op and state do not allow is a STAGE_STATE misuse, and a write at or beyond the
count of a PREPARED slot a STAGE_RANGE misuse; neither changes anything but HOST_FAULT, and a refused read returns 0
(R135, R138, R139). -/
def Obligations.StageAccessRefused : Prop :=
  ∀ (w : Word) (s : State), s.host.held = false →
    ((∀ x, s.slots[s.host.stageSlot] = some x → x.op = Op.read ∨ x.st ≠ .prepared) →
      Sys2Proof.Machine.exec (.stageDataWrite w) s =
        .next { s with host := { s.host with hostFault := misused s.host.hostFault .state } }) ∧
    (∀ x, s.slots[s.host.stageSlot] = some x → x.op ≠ Op.read → x.st = .prepared →
      x.count ≤ s.host.stageOffset.toNat →
      Sys2Proof.Machine.exec (.stageDataWrite w) s =
        .next { s with host := { s.host with hostFault := misused s.host.hostFault .range } }) ∧
    ((∀ x, s.slots[s.host.stageSlot] = some x →
        (x.op = Op.read ∧ x.st.isDone = false) ∨
        (x.op = Op.control ∧ x.st ≠ .prepared ∧ x.st.isDone = false)) →
      Sys2Proof.Machine.exec .stageDataRead s =
        .next { s with host := { s.host with readData := 0, hostFault := misused s.host.hostFault .state } })

/-- A read of EVENT0 takes a snapshot of the head record, or an empty one, and changes no record, no mark and no slot;
EVENT1 to EVENT3 then read from it (R163). A write of a select register takes bits 7 to 0 and discards its snapshot; a
read of the first view word takes a snapshot of the record selected, or of none, and returns its first word; nothing
else changes (R180, R181). -/
def Obligations.SnapshotReadsAndSelects : Prop :=
  (∀ s : State, s.host.held = false → ∃ t,
    Sys2Proof.Machine.exec .event0Read s = .next t ∧
    t = { s with
      events := { s.events with snapshot := t.events.snapshot }
      host := { s.host with readData := t.host.readData } } ∧
    (s.events.records = [] →
      t.host.readData = 0 ∧ t.readRegister 0x31 = 0 ∧ t.readRegister 0x32 = 0 ∧ t.readRegister 0x33 = 0) ∧
    ∀ r rest, s.events.records = r :: rest →
      t.host.readData = r.words[0] ∧ t.readRegister 0x31 = r.words[1] ∧ t.readRegister 0x32 = r.words[2] ∧
      t.readRegister 0x33 = r.words[3]) ∧
  ∀ (w : Word) (s : State), s.host.held = false →
    Sys2Proof.Machine.exec (.slotSelectWrite w) s =
      .next { s with host := { s.host with slotSelect := BitVec.ofNat 8 w.toNat, slotView := none } } ∧
    Sys2Proof.Machine.exec (.stationSelectWrite w) s =
      .next { s with host := { s.host with stationSelect := BitVec.ofNat 8 w.toNat, stationView := none } } ∧
    (∀ n : SlotNo, s.host.slotSelect.toNat = n.val → Sys2Proof.Machine.exec .slotView0Read s =
      .next { s with host := { s.host with
        slotView := some (s.slotViewWords n), readData := (s.slotViewWords n)[0] } }) ∧
    (32 ≤ s.host.slotSelect.toNat → Sys2Proof.Machine.exec .slotView0Read s =
      .next { s with host := { s.host with slotView := some (Vector.replicate 8 0), readData := 0 } }) ∧
    (∀ a : StationNo, s.host.stationSelect.toNat = a.val + 1 → Sys2Proof.Machine.exec .stationView0Read s =
      .next { s with host := { s.host with
        stationView := some s.stations[a].viewWords, readData := s.stations[a].viewWords[0] } }) ∧
    (s.host.stationSelect.toNat = 0 ∨ 16 ≤ s.host.stationSelect.toNat →
      Sys2Proof.Machine.exec .stationView0Read s =
        .next { s with host := { s.host with stationView := some (Vector.replicate 6 0), readData := 0 } })

/-- The event words, and the view words of a slot and of a station, carry every field of the record at the bits and in
the codes of sections 11.3 and 11.4 (R163, R180, R181). -/
def Obligations.ReadWordsCarryTheRecords : Prop :=
  (∀ r : EventRecord, r.repeats ≤ 255 → (∀ v, r.value = some v → v ≤ 4096) →
    r.words[0].toNat % 4 = (match r.source with | .slot _ => 1 | .station _ => 2 | .link => 3) ∧
    r.words[0].toNat / 4 % 32 = (match r.source with | .slot n => n.val | .station a => a.val + 1 | .link => 0) ∧
    r.words[0].toNat / 128 % 8 = (match r.kind with
      | .completion => 1 | .online => 2 | .silent => 3 | .attention => 4 | .ready => 5 | .fault => 6) ∧
    (r.words[0].getLsbD 10 = true ↔ r.stationStatus ≠ none) ∧
    (∀ f, r.detail = .status f → r.words[1].toNat % 256 = (match f with
      | .ok => 1 | .short => 2 | .stationError => 3 | .refused => 4 | .busyLimit => 5 | .linkError => 6
      | .noAnswer => 7 | .protocol => 8 | .aborted => 9 | .parkExpired => 10 | .stationLost => 11 | .linkReset => 12)) ∧
    (∀ c, r.detail = .cause c → r.words[1].toNat % 256 = (match c with | .crc => 1 | .stray => 2 | .orphan => 3)) ∧
    (∀ b, r.detail = .code b → r.words[1].toNat % 256 = b.toNat) ∧
    (r.detail = .absent → r.words[1].toNat % 256 = 0) ∧
    (r.stationStatus = none → r.words[1].toNat / 256 = 0) ∧
    (∀ b, r.stationStatus = some b → r.words[1].toNat / 256 = b.toNat) ∧
    (∀ n, r.source = .slot n → r.words[2].toNat = r.value.getD 0) ∧
    ((∀ n, r.source ≠ .slot n) → r.words[2].toNat % 256 = r.repeats ∧ r.words[2].toNat / 256 = r.alsoSeen.toNat) ∧
    r.words[3] = r.timestamp) ∧
  ((∀ (s : State) (n : SlotNo) (x : Exchange), s.slots[n] = some x → x.inRange = true → x.chain.length ≤ 64 →
    (match x.st with | .connected _ r _ => r | .aborting _ _ (some r) => r | _ => 0) ≤ 7 →
    (s.slotViewWords n)[0].toNat % 8 = (match x.st with
      | .prepared => 1 | .queued => 2 | .connected _ _ _ => 3 | .parkedStation _ _ => 4 | .parkedPool _ => 4
      | .recalled _ _ => 5 | .aborting _ _ _ => 6 | .done _ _ _ _ => 7) ∧
    (s.slotViewWords n)[0].toNat / 8 % 4 = (match x.op with | .read => 1 | .write => 2 | .control => 3) ∧
    (s.slotViewWords n)[0].getLsbD 5 = x.urgent ∧
    (s.slotViewWords n)[0].toNat / 64 % 16 = x.station.val + 1 ∧
    (∀ t, x.st.tag? = some t → (s.slotViewWords n)[0].toNat / 1024 % 8 = t.val) ∧
    (x.st.tag? = none → (s.slotViewWords n)[0].toNat / 1024 % 8 = 0) ∧
    (s.slotViewWords n)[0].getLsbD 13 = x.st.isUnread ∧
    (s.slotViewWords n)[0].toNat / 16384 = (match x.st with
      | .parkedStation _ _ => 1 | .recalled _ .station => 1 | .parkedPool _ => 2 | .recalled _ .pool => 2 | _ => 0) ∧
    (s.slotViewWords n)[1].toNat % 8192 = x.count ∧
    (∀ c t r p, s.link.op = .exchange c → c.slot = n → x.st = .connected t r p →
      (s.slotViewWords n)[1].toNat / 8192 = (match c.phase with
        | .opening => 1 | .sending => 2 | .awaiting => 3 | .closing => 4 | .abortSent => 5)) ∧
    ((∀ t r p, x.st ≠ .connected t r p) → (s.slotViewWords n)[1].toNat / 8192 = 0) ∧
    (s.slotViewWords n)[2].toNat % 8192 = x.doneCount ∧
    (s.slotViewWords n)[2].toNat / 8192 = (match x.st with
      | .connected _ r _ => r | .aborting _ _ (some r) => r | _ => 0) ∧
    (s.slotViewWords n)[4] ++ (s.slotViewWords n)[3] = x.unitAddress ∧
    (∀ t d, x.st = .parkedStation t d → (s.slotViewWords n)[6] ++ (s.slotViewWords n)[5] = d) ∧
    (∀ f st u res, x.st = .done f st u res →
      (s.slotViewWords n)[5].toNat % 16 = (match f with
      | .ok => 1 | .short => 2 | .stationError => 3 | .refused => 4 | .busyLimit => 5 | .linkError => 6
      | .noAnswer => 7 | .protocol => 8 | .aborted => 9 | .parkExpired => 10 | .stationLost => 11 | .linkReset => 12) ∧
      (s.slotViewWords n)[5].toNat / 16 % 16 = res.length ∧
      (s.slotViewWords n)[5].getLsbD 8 = st.isSome ∧ (s.slotViewWords n)[6].toNat = (st.getD 0).toNat) ∧
    (x.st.isDone = false → (∀ t d, x.st ≠ .parkedStation t d) →
      (s.slotViewWords n)[5] = 0 ∧ (s.slotViewWords n)[6] = 0) ∧
    (s.slotViewWords n)[7].toNat % 16 = x.busyCount ∧
    (s.slotViewWords n)[7].toNat / 16 % 128 = x.chain.length ∧
    (s.slotViewWords n)[7].toNat / 2048 = (match x.st with
      | .connected _ _ (some .aborted) => 9 | .connected _ _ (some .parkExpired) => 10
      | .connected _ _ (some .protocol) => 8 | .connected _ _ (some .linkError) => 6
      | .connected _ _ (some .stationLost) => 11
      | .aborting _ .aborted _ => 9 | .aborting _ .parkExpired _ => 10 | .aborting _ .protocol _ => 8
      | .aborting _ .linkError _ => 6 | .aborting _ .stationLost _ => 11 | _ => 0)) ∧
  (∀ (s : State) (n : SlotNo), s.slots[n] = none → s.slotViewWords n = Vector.replicate 8 0) ∧
  ∀ st : Station, st.inRange →
    st.viewWords[0].toNat % 4 =
      (match st.state with | .unknown => 0 | .online => 1 | .silent => 2 | .offline => 3) ∧ st.viewWords[0].toNat / 4 % 16 = st.depth ∧
    st.viewWords[0].toNat / 64 % 8 = st.creditMax ∧ st.viewWords[0].toNat / 512 % 4 = st.missCount ∧
    st.viewWords[0].getLsbD 11 = st.backoff ∧ st.viewWords[0].getLsbD 12 = st.attention ∧
    st.viewWords[1] = st.parkLimit ∧
    ∀ t : Tag, (st.viewWords.toList.getD (2 + t.val / 2) 0).toNat / 256 ^ (t.val % 2) % 256 =
      (match st.tagMap[t] with | some n => 128 + n.val | none => 0))

/-- EVENT_POP, whatever the word: the head record leaves the queue, its source's pending mark is cleared, the STATUS
event count falls by one, and the snapshot is discarded; for a SLOT record event unread is cleared, for a STATION
record attention pending, and nothing else changes; the line stands as the records left say; on an empty queue the
snapshot alone is discarded (R157, R164, R166). -/
def Obligations.EventPopRemovesHead : Prop :=
  ∀ (w : Word) (s : State), s.host.held = false →
    (s.events.records = [] → Sys2Proof.Machine.exec (.eventPop w) s =
      .next { s with events := { records := [], snapshot := none } }) ∧
    ∀ r rest, s.events.records = r :: rest → ∃ t, Sys2Proof.Machine.exec (.eventPop w) s = .next t ∧
      t = { s with
        events := { records := rest, snapshot := none }
        slots := t.slots
        stations := t.stations } ∧
      ((s.events.records.map EventRecord.source).Nodup → ∀ q ∈ t.events.records, q.source ≠ r.source) ∧
      (rest.length < 4095 → (t.readRegister 0x05).toNat / 16 + 1 = (s.readRegister 0x05).toNat / 16) ∧
      (t.interruptAsserted = true ↔
        (s.host.intSlot = true ∧ ∃ q ∈ rest, ∃ n, q.source = .slot n) ∨
        (s.host.intStation = true ∧ ∃ q ∈ rest, ∃ a, q.source = .station a) ∨
        (s.host.intLink = true ∧ ∃ q ∈ rest, q.source = .link) ∨
        (s.host.intHostFault = true ∧ s.host.hostFault ≠ none)) ∧
      (∀ n, r.source = .slot n → t.stations = s.stations ∧ (∀ m, m ≠ n → t.slots[m] = s.slots[m]) ∧
        ∀ x f st u result, s.slots[n] = some x → x.st = .done f st u result →
          t.slots = s.slots.set n (some { x with st := .done f st false result })) ∧
      (∀ a, r.source = .station a → t.slots = s.slots ∧
        t.stations = s.stations.set a { s.stations[a] with attention := false }) ∧
      (r.source = .link → t.slots = s.slots ∧ t.stations = s.stations)

/-- A read of TIMEBASE_LO returns the low half of the timebase and latches the high half of the same value;
TIMEBASE_HI returns the latch; writes to both are ignored; hardware and soft reset set the timebase and the latch to 0,
and a link reset changes neither (R182). -/
def Obligations.TimebaseReadsInTwoHalves : Prop :=
  ∀ (w : Word) (strap : BitVec 2) (s : State), s.host.held = false →
    (∃ t, Sys2Proof.Machine.exec .timebaseLoRead s = .next t ∧
      t = { s with host := { s.host with readData := t.host.readData, timebaseLatch := t.host.timebaseLatch } } ∧
      t.host.timebaseLatch ++ t.host.readData = s.park.timebase) ∧
    s.readRegister 0x39 = s.host.timebaseLatch ∧
    Sys2Proof.Machine.exec (.registerWrite 0x38 w) s = .next s ∧
    Sys2Proof.Machine.exec (.registerWrite 0x39 w) s = .next s ∧
    (∀ c, c = .softReset ∨ c = .resetRelease strap →
      ∃ t, Sys2Proof.Machine.exec c s = .next t ∧ t.park.timebase = 0 ∧ t.host.timebaseLatch = 0) ∧
    ∃ t, Sys2Proof.Machine.exec .linkReset s = .next t ∧
      t.park.timebase = s.park.timebase ∧ t.host.timebaseLatch = s.host.timebaseLatch

/-- A write to ARG0 to ARG3 stores the word and changes nothing else, and a write to a read-only register or to an
unassigned address changes nothing (R168, R174; section 11.2); a code of 0 or 11 to 255 is refused BAD_COMMAND with
value 0 and nothing else changes (R174). A write of a command code to COMMAND is that command, and a write to an
address with a row of its own is that row: the model's choice, log entry 13. -/
def Obligations.RegisterWritesStoreOrIgnore : Prop :=
  (∀ (w : Word) (s : State), s.host.held = false →
    (∀ i : Fin 4, Sys2Proof.Machine.exec (.registerWrite (BitVec.ofNat 7 (0x11 + i.val)) w) s =
      .next { s with host := { s.host with args := s.host.args.set i w } }) ∧
    ∀ offset : BitVec 7,
      offset.toNat ∉ [0x01, 0x02, 0x03, 0x04, 0x08, 0x10, 0x11, 0x12, 0x13, 0x14, 0x18, 0x21, 0x28, 0x29, 0x2A, 0x34] →
      Sys2Proof.Machine.exec (.registerWrite offset w) s = .next s) ∧
  (∀ (code : Byte) (s : State), s.host.held = false → (code = 0 ∨ 11 ≤ code.toNat) →
    Sys2Proof.Machine.exec (.unknownCommandCode code) s = .next (s.answered .badCommand 0)) ∧
  (∀ (w : Word) (s : State),
    (∀ c, (w.toNat % 256, c) ∈ [(1, Instr.claim), (2, .issue), (3, .abort), (4, .release), (5, .stationOn),
        (6, .stationOff), (7, .stationConfig), (8, .linkReset), (9, .pollNow), (10, .softReset)] →
      Sys2Proof.Machine.exec (.registerWrite 0x10 w) s = Sys2Proof.Machine.exec c s ∧
      Sys2Proof.Machine.exec (.unknownCommandCode (BitVec.ofNat 8 w.toNat)) s = Sys2Proof.Machine.exec c s) ∧
    ∀ offset c, (offset, c) ∈ [(0x01, Instr.linkEnableWrite w), (0x02, .linkConfigWrite false w),
        (0x03, .linkConfigWrite true w), (0x04, .intEnableWrite w), (0x08, .hostFaultClear w),
        (0x18, .slotSelectWrite w), (0x21, .stationSelectWrite w), (0x28, .stageSlotWrite w),
        (0x29, .stageOffsetWrite w), (0x2A, .stageDataWrite w), (0x34, .eventPop w)] →
      Sys2Proof.Machine.exec (.registerWrite offset w) s = Sys2Proof.Machine.exec c s)

/-! ### Slot commands -/

/-- A refused CLAIM: out-of-range arguments, then an OFFLINE station, then no FREE slot, then too few free pages for a
WRITE, each with value 0 and no other change (R9, R10, R175). ISSUE, ABORT and RELEASE refused: a number above 31 is
BAD_PARAM with value 0; a state the command is not taken in, an OFFLINE station, a pending status that stands and an
unread event have their codes with the slot number; and nothing else changes (R9, R12 to R15). -/
def Obligations.SlotCommandRefusals : Prop :=
  (∀ (s : State) (station op priority count : Nat), s.host.held = false →
    station = s.host.args[0].toNat % 256 → op = s.host.args[0].toNat / 256 % 16 →
    priority = s.host.args[0].toNat / 4096 % 4 → count = s.host.args[1].toNat →
    let inRange : Prop := 1 ≤ op ∧ op ≤ 3 ∧ 1 ≤ station ∧ station ≤ 15 ∧ priority ≤ 1 ∧
      (if op = 3 then count ≤ 8 else 1 ≤ count ∧ count ≤ 4096)
    (¬ inRange → Sys2Proof.Machine.exec .claim s = .next (s.answered .badParam 0)) ∧
    (inRange → ∀ a : StationNo, a.val + 1 = station →
      (s.stations[a].state = .offline → Sys2Proof.Machine.exec .claim s = .next (s.answered .stationOffline 0)) ∧
      (s.stations[a].state ≠ .offline → (∀ n : SlotNo, s.slots[n] ≠ none) →
        Sys2Proof.Machine.exec .claim s = .next (s.answered .noSlot 0)) ∧
      (s.stations[a].state ≠ .offline → (∃ n : SlotNo, s.slots[n] = none) → op = 2 →
        s.stage.free.length < frames count →
        Sys2Proof.Machine.exec .claim s = .next (s.answered .noPages 0)))) ∧
  (∀ s : State, s.host.held = false →
    (32 ≤ s.host.args[0].toNat % 256 → ∀ c ∈ [Instr.issue, .abort, .release],
      Sys2Proof.Machine.exec c s = .next (s.answered .badParam 0)) ∧
    ∀ n : SlotNo, s.host.args[0].toNat % 256 = n.val →
      (s.slots[n] = none → ∀ c ∈ [Instr.issue, .abort, .release],
        Sys2Proof.Machine.exec c s = .next (s.answered .badState n.val)) ∧
      ∀ x, s.slots[n] = some x →
        (x.st ≠ .prepared → Sys2Proof.Machine.exec .issue s = .next (s.answered .badState n.val)) ∧
        (x.st = .prepared → s.stations[x.station].state = .offline →
          Sys2Proof.Machine.exec .issue s = .next (s.answered .stationOffline n.val)) ∧
        (x.st = .prepared ∨ x.st.isDone = true →
          Sys2Proof.Machine.exec .abort s = .next (s.answered .badState n.val)) ∧
        (∀ t r f, x.st = .aborting t f r ∨ (∃ k, x.st = .connected t k (some f)) →
          Sys2Proof.Machine.exec .abort s = .next (s.answered .already n.val)) ∧
        (x.st.isUnread = true →
          Sys2Proof.Machine.exec .release s = .next (s.answered .eventUnread n.val)) ∧
        (x.st ≠ .prepared → x.st.isDone = false →
          Sys2Proof.Machine.exec .release s = .next (s.answered .badState n.val)))

/-- An accepted CLAIM makes the lowest FREE slot PREPARED with its arguments, takes the pages of a WRITE from the top of
the free list with every byte 0, zeroes the parameters of a CONTROL, answers the slot number, and changes nothing
else (R10, R11, R127, R128). -/
def Obligations.ClaimTakesLowestFreeSlot : Prop :=
  ∀ (s : State) (op : Op) (a : StationNo) (n : SlotNo) (count : Nat), s.host.held = false →
    s.host.args[0].toNat % 256 = a.val + 1 →
    s.host.args[0].toNat / 256 % 16 = (match op with | .read => 1 | .write => 2 | .control => 3) →
    s.host.args[0].toNat / 4096 % 4 ≤ 1 → s.host.args[1].toNat = count →
    (if op = Op.control then count ≤ 8 else 1 ≤ count ∧ count ≤ 4096) →
    s.stations[a].state ≠ .offline → s.slots[n] = none → (∀ m : SlotNo, m < n → s.slots[m] ≠ none) →
    (op = Op.write → frames count ≤ s.stage.free.length) → Memory.wf s.stage.mem →
    let k := if op = Op.write then frames count else 0
    ∃ m : Memory,
      Sys2Proof.Machine.exec .claim s = .next ({ s with
        slots := s.slots.set n (some
          { op := op, station := a, urgent := s.host.args[0].toNat / 4096 % 4 == 1
            unitAddress := s.host.args[3] ++ s.host.args[2], count := count, doneCount := 0, busyCount := 0
            chain := s.stage.free.take k
            params := if op = Op.control then [0, 0, 0, 0, 0, 0, 0, 0] else [], st := .prepared })
        stage := { s.stage with free := s.stage.free.drop k, mem := m } }.answered .ok n.val) ∧
      Memory.wf m ∧
      ∀ (p : Page) (o : Nat), o < 64 →
        Memory.readByte m (64 * p.val + o) =
          if p ∈ s.stage.free.take k then 0 else Memory.readByte s.stage.mem (64 * p.val + o)

/-- ISSUE moves a PREPARED slot of a station that is not OFFLINE to QUEUED at the tail of its priority level, answers OK
with the slot number, and the arbiter may choose at once (R12, R113, R116). -/
def Obligations.IssueQueuesAtTail : Prop :=
  ∀ (s : State) (n : SlotNo) (x : Exchange), s.host.held = false → s.host.args[0].toNat % 256 = n.val →
    s.slots[n] = some x → x.st = .prepared → s.stations[x.station].state ≠ .offline →
    Sys2Proof.Machine.exec .issue s = .next (({ s with
      slots := s.slots.set n (some { x with st := .queued })
      arb :=
        { s.arb with
          level1 := if x.urgent then s.arb.level1 ++ [n] else s.arb.level1
          level0 := if x.urgent then s.arb.level0 else s.arb.level0 ++ [n] } }.answered .ok n.val).choose)

/-- ABORT accepted, by state: a QUEUED slot enters DONE(ABORTED); a PARKED or RECALLED slot becomes ABORTING at the tail
of the abort-visit list with its tag; a CONNECTED slot with no pending status takes pending ABORTED and stays
connected (R13, R14, R25). -/
def Obligations.AbortBySlotState : Prop :=
  ∀ (s : State) (n : SlotNo) (x : Exchange), s.host.held = false → s.host.args[0].toNat % 256 = n.val →
    s.slots[n] = some x →
    (x.st = .queued → Sys2Proof.Machine.exec .abort s =
      .next (((s.afterDone n x .aborted none []).answered .ok n.val).choose)) ∧
    (∀ t, (∃ d, x.st = .parkedStation t d) ∨ x.st = .parkedPool t ∨ (∃ r, x.st = .recalled t r) →
      Sys2Proof.Machine.exec .abort s = .next (((s.condemnedTo n x t .aborted).answered .ok n.val).choose)) ∧
    ∀ t r, x.st = .connected t r none → Sys2Proof.Machine.exec .abort s =
      .next ({ s with slots := s.slots.set n (some { x with st := .connected t r (some .aborted) }) }.answered
        .ok n.val)

/-- RELEASE frees a PREPARED slot, or a DONE slot whose record has been popped: its chain is pushed onto the free list
from its head to its tail, so its last page is on top, the slot is FREE, and the arbiter may choose (R15, R116,
R132). -/
def Obligations.ReleaseFreesSlot : Prop :=
  ∀ (s : State) (n : SlotNo) (x : Exchange), s.host.held = false → s.host.args[0].toNat % 256 = n.val →
    s.slots[n] = some x → x.st = .prepared ∨ (x.st.isDone = true ∧ x.st.isUnread = false) →
    Sys2Proof.Machine.exec .release s = .next (({ s with
      slots := s.slots.set n none
      stage := { s.stage with free := x.chain.reverse ++ s.stage.free } }.answered .ok n.val).choose)

/-! ### Station commands -/

/-- STATION_ON brings an OFFLINE station to UNKNOWN with miss count 0, and is refused BAD_STATE in any other state; an
address outside 1 to 15 is BAD_PARAM with value 0 for each station command (R97, section 5.3). STATION_CONFIG checks
its values, then the station's state; accepted, it sets depth, credit max and park limit together, and refused it sets
none (R99). That STATION_ON lets the arbiter choose is read from R104 and R116 (log entry 19). -/
def Obligations.StationOnAndConfig : Prop :=
  (∀ s : State, s.host.held = false →
    (s.host.args[0].toNat % 256 = 0 ∨ 16 ≤ s.host.args[0].toNat % 256 →
      ∀ c ∈ [Instr.stationOn, .stationOff, .stationConfig],
        Sys2Proof.Machine.exec c s = .next (s.answered .badParam 0)) ∧
    ∀ a : StationNo, s.host.args[0].toNat % 256 = a.val + 1 →
      (s.stations[a].state = .offline → Sys2Proof.Machine.exec .stationOn s =
        .next (({ s with stations := s.stations.set a { s.stations[a] with state := .unknown, missCount := 0 } }.answered
          .ok (a.val + 1)).choose)) ∧
      (s.stations[a].state ≠ .offline → Sys2Proof.Machine.exec .stationOn s =
        .next (s.answered .badState (a.val + 1)))) ∧
  (∀ (s : State) (a : StationNo), s.host.held = false → s.host.args[0].toNat % 256 = a.val + 1 →
    let inRange : Prop := 1 ≤ s.host.args[1].toNat ∧ s.host.args[1].toNat ≤ 8 ∧ 1 ≤ s.host.args[2].toNat ∧
      s.host.args[2].toNat ≤ 4 ∧ 1 ≤ s.host.args[3].toNat
    (¬ inRange → Sys2Proof.Machine.exec .stationConfig s = .next (s.answered .badParam (a.val + 1))) ∧
    (inRange → s.stations[a].state ≠ .offline →
      Sys2Proof.Machine.exec .stationConfig s = .next (s.answered .badState (a.val + 1))) ∧
    (inRange → s.stations[a].state = .offline → Sys2Proof.Machine.exec .stationConfig s =
      .next ({ s with stations := s.stations.set a { s.stations[a] with
        depth := s.host.args[1].toNat, creditMax := s.host.args[2].toNat, parkLimit := s.host.args[3] } }.answered
          .ok (a.val + 1))))

/-- STATION_OFF takes a station OFFLINE with miss count 0 and no backoff and applies R24 to its slots: those off the link
end at once, their records posted in ascending slot number, a CONNECTED one takes pending STATION_LOST, and nothing
else changes; for an OFFLINE station it is answered ALREADY (R24, R98). -/
def Obligations.StationOffEndsItsSlots : Prop :=
  ∀ (s : State) (a : StationNo), s.host.held = false → s.host.args[0].toNat % 256 = a.val + 1 →
    (s.stations[a].state = .offline →
      Sys2Proof.Machine.exec .stationOff s = .next (s.answered .already (a.val + 1))) ∧
    (s.stations[a].state ≠ .offline → ∃ t, Sys2Proof.Machine.exec .stationOff s = .next t ∧
      (∀ n : SlotNo, t.slots[n] =
        match s.slots[n], s.lostBy a n with
        | some x, some f => some { x with st := .done f none true [] }
        | some x, none =>
          if x.station = a then
            match x.st with
            | .connected g r none => some { x with st := .connected g r (some .stationLost) }
            | _ => some x
          else some x
        | none, _ => none) ∧
      t.events = { s.events with
        records := s.events.records ++ (List.finRange 32).filterMap fun n =>
          match s.slots[n], s.lostBy a n with
          | some x, some f => some
              { source := .slot n, kind := .completion, detail := .status f, value := some x.doneCount
                stationStatus := none, repeats := 0, alsoSeen := 0
                timestamp := s.park.timebase.extractLsb' 0 16 }
          | _, _ => none } ∧
      (t.stations[a].state = .offline ∧ t.stations[a].missCount = 0 ∧ t.stations[a].backoff = false ∧
        t.stations[a].depth = s.stations[a].depth ∧ t.stations[a].creditMax = s.stations[a].creditMax ∧
        t.stations[a].parkLimit = s.stations[a].parkLimit ∧ t.stations[a].attention = s.stations[a].attention ∧
        ∀ g : Tag, t.stations[a].tagMap[g] =
          if ∃ n : SlotNo, ∃ x, s.slots[n] = some x ∧ s.lostBy a n ≠ none ∧ x.st.tag? = some g then none
          else s.stations[a].tagMap[g]) ∧
      (∀ b : StationNo, b ≠ a → t.stations[b] = s.stations[b]) ∧
      t.arb = { s.arb with
        level1 := s.arb.level1.filter (s.lostBy a · = none), level0 := s.arb.level0.filter (s.lostBy a · = none)
        abortList := s.arb.abortList.filter (s.lostBy a · = none)
        poolList := s.arb.poolList.filter (s.lostBy a · = none)
        recallList := s.arb.recallList.filter (s.lostBy a · = none) } ∧
      t.park = { s.park with deadlines := s.park.deadlines.filter (s.lostBy a · = none) } ∧
      ((∀ w, s.link.op ≠ .poll w) → t.link = s.link) ∧
      (∀ w, s.link.op = .poll w → t.link = { s.link with op := .poll { w with
        cleanup := w.cleanup.map fun e =>
          if ∃ n : SlotNo, e.slot = some n ∧ s.lostBy a n ≠ none then { e with slot := none } else e } }) ∧
      t.host = (s.answered .ok (a.val + 1)).host ∧ t.stage = s.stage ∧ t.freeCount = s.freeCount ∧
      t.pending = s.pending)

/-- POLL_NOW sets the poll-requested mark and answers OK with value 0 in every state of the part, and the arbiter may
choose at once (R103, R116, R176). -/
def Obligations.PollNowSetsRequest : Prop :=
  ∀ s : State, s.host.held = false →
    Sys2Proof.Machine.exec .pollNow s =
      .next (({ s with arb := { s.arb with pollRequested := true } }.answered .ok 0).choose)

/-! ### Resets -/

/-- LINK_RESET is refused BAD_STATE while a link reset runs. Otherwise it cuts the operation, ends every slot that holds
a tag as LINK_RESET in ascending slot number, empties the lists of such slots and the reservation list, and brings
every station that is not OFFLINE to UNKNOWN with an empty tag map; the issue queue, the fairness counter, the poll
state, the timebase and the registers are kept (R27, R111, R131, R151, R152). That the miss count of an OFFLINE station
becomes 0 too is read from R111 (log entry 18). -/
def Obligations.LinkResetBegins : Prop :=
  ∀ s : State, s.host.held = false →
    (s.link.op = .resetBreak ∨ s.link.op = .resetQuiet →
      Sys2Proof.Machine.exec .linkReset s = .next (s.answered .badState 0)) ∧
    (s.link.op ≠ .resetBreak → s.link.op ≠ .resetQuiet → ∃ t, Sys2Proof.Machine.exec .linkReset s = .next t ∧
      t.link = { op := .resetBreak, turn := .nobody, replyTimer := none, sending := none, lateOpen := false } ∧
      (∀ n : SlotNo, t.slots[n] =
        match s.slots[n] with
        | some x => some (if x.st.tag?.isSome then { x with st := .done .linkReset none true [] } else x)
        | none => none) ∧
      t.events = { s.events with
        records := s.events.records ++ (List.finRange 32).filterMap fun n =>
          match s.slots[n] with
          | some x =>
            if x.st.tag?.isSome then some
              { source := .slot n, kind := .completion, detail := .status .linkReset, value := some x.doneCount
                stationStatus := none, repeats := 0, alsoSeen := 0
                timestamp := s.park.timebase.extractLsb' 0 16 }
            else none
          | none => none } ∧
      t.stage = { s.stage with free := s.stage.reserved ++ s.stage.free, reserved := [] } ∧
      (∀ a : StationNo, t.stations[a] = { s.stations[a] with
        state := if s.stations[a].state = .offline then .offline else .unknown
        tagMap := Vector.replicate 8 none, missCount := 0, backoff := false }) ∧
      t.arb = { s.arb with
        level1 := s.arb.level1.filter (s.tagFree ·), level0 := s.arb.level0.filter (s.tagFree ·)
        abortList := s.arb.abortList.filter (s.tagFree ·), poolList := s.arb.poolList.filter (s.tagFree ·)
        recallList := s.arb.recallList.filter (s.tagFree ·) } ∧
      t.park = { s.park with deadlines := s.park.deadlines.filter (s.tagFree ·) } ∧
      t.host = (s.answered .ok 0).host ∧ t.freeCount = s.freeCount ∧ t.pending = s.pending)

/-- SOFT_RESET brings every block to its soft reset values and begins a link reset, in every state of the part; the
link configuration, the interrupt enables, POLL_ALWAYS and each station's configuration and OFFLINE mark are kept,
and no record is posted (R111, R125, R141, R177, R179). That the bytes of the pages are left as they stand is the
model's choice (log entry 3). -/
def Obligations.SoftResetValues : Prop :=
  ∀ s : State, s.host.held = false → ∃ t, Sys2Proof.Machine.exec .softReset s = .next t ∧
    t.host = { s.host with
      linkEnable := false, hostFault := none, args := Vector.replicate 4 0, resultCode := .ok, resultValue := 0
      slotSelect := 0, slotView := none, stationSelect := 0, stationView := none, stageSlot := 0, stageOffset := 0
      timebaseLatch := 0 } ∧
    (∀ n : SlotNo, t.slots[n] = none) ∧ t.stage = { s.stage with free := List.finRange 256, reserved := [] } ∧
    (∀ a : StationNo, t.stations[a] = { s.stations[a] with
      state := if s.stations[a].state = .offline then .offline else .unknown
      tagMap := Vector.replicate 8 none, missCount := 0, backoff := false, attention := false }) ∧
    t.arb = { level1 := [], level0 := [], abortList := [], poolList := [], recallList := [], fairness := 0
              pollTimer := s.host.pollInterval.toNat, pollDue := false, pollRequested := false } ∧
    t.link = { op := .resetBreak, turn := .nobody, replyTimer := none, sending := none, lateOpen := false } ∧
    t.park = { timebase := 0, deadlines := [] } ∧ t.events = { records := [], snapshot := none } ∧
    t.freeCount = s.freeCount ∧ t.pending = s.pending

/-- Hardware reset: from its assertion every block of the part stands at its hardware reset values, with no link
operation, and the part drives neither the link nor the interrupt line and reads 0; at its release every block takes
its hardware reset values, the rate strap is sampled, and a link reset begins (R91, R111, R125, R141, R156, R167, R178,
R179, section 10.6). That the values already stand while the input is asserted, that the bytes of the pages are left as
they stand, and that the last word read stays in readData, is the model's choice (log entries 16, 3 and 4). -/
def Obligations.HardwareResetValues : Prop :=
  ∀ (strap : BitVec 2) (s : State),
    (∃ t, Sys2Proof.Machine.exec .resetAssert s = .next t ∧
      t = { State.reset with
        host := { State.reset.host with held := true, rateStrap := s.host.rateStrap, readData := s.host.readData }
        stage := { State.reset.stage with mem := s.stage.mem }
        link := idleLink
        freeCount := s.freeCount
        pending := s.pending } ∧
      t.transceiverEnabled = false ∧ t.interruptAsserted = false ∧ ∀ offset, t.readRegister offset = 0) ∧
    Sys2Proof.Machine.exec (.resetRelease strap) s = .next { State.reset with
      host := { State.reset.host with rateStrap := strap, readData := s.host.readData }
      stage := { State.reset.stage with mem := s.stage.mem }
      freeCount := s.freeCount
      pending := s.pending }

/-- The break of a link reset ends in its quiet period with nothing else changed; the quiet period ends with the link
idle, LINK READY posted or folded, and the arbiter's choice (R153, R155). -/
def Obligations.LinkResetRunsToReady : Prop :=
  ∀ s : State, s.host.held = false →
    (s.link.op = .resetBreak → Sys2Proof.Machine.exec .linkResetBreakEnd s =
      .next { s with link := { s.link with op := .resetQuiet } }) ∧
    (s.link.op = .resetQuiet → Sys2Proof.Machine.exec .linkResetEnd s =
      .next ({ s with
        link := idleLink
        events := { s.events with
          records := recordsAfter s.events.records .link .ready .absent 0x08 s.park.timebase } }.choose))

/-! ### Time -/

/-- An advance of the timebase on which no deadline is reached: the timebase rises by one modulo 2^32, and the poll
interval timer falls by one, or expires, sets poll-due and is loaded from POLL_INTERVAL, with the arbiter's choice. The
two timer rows taken by themselves: DEADLINE_EXPIRY takes the head of the deadline list when its deadline is reached,
and does nothing otherwise; POLL_INTERVAL_EXPIRY sets poll-due and loads the timer; the arbiter then may choose (R87,
R90, R102, R116). That the rows stand for these events is the model's choice (log entry 8). -/
def Obligations.TimersCountAndExpire : Prop :=
  (∀ s : State, s.host.held = false →
    (∀ n rest x t, s.park.deadlines = n :: rest → s.slots[n] = some x →
      x.st ≠ .parkedStation t (s.park.timebase + 1)) →
    (2 ≤ s.arb.pollTimer → Sys2Proof.Machine.exec .timebaseAdvance s = .next { s with
      park := { s.park with timebase := s.park.timebase + 1 }
      arb := { s.arb with pollTimer := s.arb.pollTimer - 1 } }) ∧
    (s.arb.pollTimer ≤ 1 → Sys2Proof.Machine.exec .timebaseAdvance s = .next ({ s with
      park := { s.park with timebase := s.park.timebase + 1 }
      arb := { s.arb with pollDue := true, pollTimer := s.host.pollInterval.toNat } }.choose))) ∧
  (∀ s : State, s.host.held = false →
    (∀ n rest x t, s.park.deadlines = n :: rest → s.slots[n] = some x →
      x.st = .parkedStation t s.park.timebase →
      Sys2Proof.Machine.exec .deadlineExpiry s = .next ((s.condemnedTo n x t .parkExpired).choose)) ∧
    ((∀ n rest x t, s.park.deadlines = n :: rest → s.slots[n] = some x → x.st ≠ .parkedStation t s.park.timebase) →
      Sys2Proof.Machine.exec .deadlineExpiry s = .next s) ∧
    Sys2Proof.Machine.exec .pollIntervalExpiry s = .next ({ s with
      arb := { s.arb with pollDue := true, pollTimer := s.host.pollInterval.toNat } }.choose))

/-- On an advance of the timebase every entry at the head of the deadline list whose deadline is reached expires, in
list order: its slot becomes ABORTING with pending PARK_EXPIRED and its tag, and joins the tail of the abort-visit
list; the entries behind stay in order, every other slot is as it was, and the arbiter may choose. On an idle link with
LINK_ENABLE set and no visit waiting, the visit of the first is granted at once. The poll interval timer falls by one on
the same advance; where it expires there, which of the two is taken first is a free value, and either is followed by
the arbiter's choice (log entry 2) (R87, R88, R90, R102, R116, R117, R122). -/
def Obligations.ReachedDeadlinesExpireInOrder : Prop :=
  ∀ (s : State) (due later : List SlotNo), s.host.held = false → s.listsFit → due ≠ [] →
    s.park.deadlines = due ++ later →
    (∀ n ∈ due, ∃ x t, s.slots[n] = some x ∧ x.st = .parkedStation t (s.park.timebase + 1)) →
    (∀ n rest x t, later = n :: rest → s.slots[n] = some x → x.st ≠ .parkedStation t (s.park.timebase + 1)) →
    let ticked : State := { s with park := { s.park with timebase := s.park.timebase + 1 } }
    let counted : State := { ticked with freeCount := s.freeCount + 1 }
    (2 ≤ s.arb.pollTimer →
      let u := (ticked.expiredTo due later).choose
      Sys2Proof.Machine.exec .timebaseAdvance s =
        .next { u with arb := { u.arb with pollTimer := s.arb.pollTimer - 1 } }) ∧
    (2 ≤ s.arb.pollTimer → s.arbiterRests → Sys2Proof.Machine.exec .timebaseAdvance s =
      .next { ticked.expiredTo due later with
        arb := { s.arb with abortList := s.arb.abortList ++ due, pollTimer := s.arb.pollTimer - 1 } }) ∧
    (∀ n rest x t, 2 ≤ s.arb.pollTimer → s.link.op = .idle → s.host.linkEnable = true → s.arb.abortList = [] →
      due = n :: rest → s.slots[n] = some x → x.st = .parkedStation t (s.park.timebase + 1) →
      Sys2Proof.Machine.exec .timebaseAdvance s = .next { ticked.expiredTo due later with
        slots := (ticked.expiredTo due later).slots.set n (some { x with st := .aborting t .parkExpired (some 0) })
        arb := { s.arb with abortList := rest, pollTimer := s.arb.pollTimer - 1 }
        link := sendingLink (.abortVisit n s.host.retryLimit.toNat) (abortOf x.station t) }) ∧
    (s.arb.pollTimer ≤ 1 →
      Sys2Proof.Machine.exec .timebaseAdvance s = .next (counted.expiredTo due later).choose.pollTimeOver.choose ∨
      Sys2Proof.Machine.exec .timebaseAdvance s = .next (counted.pollTimeOver.choose.expiredTo due later).choose)

/-- The reply timer runs out in OPENING with no pending status: below RETRY_LIMIT the retry count rises and the same
CALL or RESUME is sent again, with the same tag, fields and offset; at it the slot ends NO_ANSWER, a miss is counted
after its completion, and the link falls idle (R31, R36, R52, R94). A frame that was received together with
the expiry may still be taken, and is stray (log entry 27). -/
def Obligations.OpeningTimeoutResendsOrEnds : Prop :=
  ∀ (s : State) (c : Connection) (x : Exchange) (t : Tag) (r : Nat) (b : Byte),
    s.awaitsStation c x t r none → s.link.replyTimer = some b → c.phase = .opening →
    (r < c.retryLimit → Sys2Proof.Machine.exec .replyTimerExpiry s = .next { s with
        slots := s.slots.set c.slot (some { x with st := .connected t (r + 1) none })
        link := sendingLink (.exchange c) (if c.resumed then resumeOf x t else callOf x t) }.afterExpiry) ∧
    (c.retryLimit ≤ r → Sys2Proof.Machine.exec .replyTimerExpiry s =
      .next ({ (s.afterDone c.slot x .noAnswer none []).missed x.station with link := idleLink }.choose.afterExpiry))

/-- The reply timer runs out in a data phase with no pending status. Below RETRY_LIMIT the retry count rises, and: in
AWAITING a WRITE sends its burst again from the oldest unacknowledged frame; in AWAITING a READ is at a grant point, and
its ACK carries a fresh credit, or the slot parks for POOL, or CLOSING is entered; in CLOSING the same ACK with credit 0
is sent again. At RETRY_LIMIT the data phases are exhausted: pending LINK_ERROR, and ABORT with a fresh retry count.
With a pending status already set the head's turn carries ABORT (R36, R53, R58, R59, R60, R62, R64, R65, R67, R68). A
frame that was received together with the expiry may still be taken, and is stray (log entry 27). That the phase changes
as the head begins to send its ACK or ABORT is the model's choice (log entry 29). That next-to-send goes back as the
burst begins is the model's choice too (log entry 30). -/
def Obligations.DataPhaseTimeoutRecoversOrAborts : Prop :=
  ∀ (s : State) (c : Connection) (x : Exchange) (t : Tag) (r : Nat) (p : Option Fatal) (b : Byte),
    s.awaitsStation c x t r p → s.link.replyTimer = some b →
    (p = none → r < c.retryLimit →
      (c.phase = .closing → Sys2Proof.Machine.exec .replyTimerExpiry s = .next { s with
        slots := s.slots.set c.slot (some { x with st := .connected t (r + 1) none })
        link := sendingLink (.exchange c)
          (ackOf x t (if x.op = Op.read then c.nextExpected else c.nextSend) 0) }.afterExpiry) ∧
      (∀ credit, c.phase = .awaiting → x.op = Op.write → c.stationCredit = some credit → x.inRange = true →
        x.doneCount < x.count →
        Sys2Proof.Machine.exec .replyTimerExpiry s = .next (s.burstFrom c x t (r + 1) credit).afterExpiry) ∧
      (c.phase = .awaiting → x.op = Op.read →
        Sys2Proof.Machine.exec .replyTimerExpiry s = .next (s.grantOf c x t (r + 1)).afterExpiry)) ∧
    (p = none → c.retryLimit ≤ r → c.phase = .closing ∨ (c.phase = .awaiting ∧ x.op ≠ Op.control) →
      Sys2Proof.Machine.exec .replyTimerExpiry s = .next (s.abortPhaseOf c x t .linkError).afterExpiry) ∧
    ∀ q, p = some q →
      Sys2Proof.Machine.exec .replyTimerExpiry s = .next (s.abortPhaseOf c x t q).afterExpiry

/-- ABORT unanswered. In the abort phase of a connection and in an abort visit: below the RETRY_LIMIT of the operation
the retry count rises and ABORT is sent again; at it the slot ends with its pending status and no station status, a
miss is counted after its completion, and the link falls idle. In the wait after a cleanup ABORT: at once, a slot bound
to the entry ends with its pending status, a miss is counted, and the cleanup goes on with its next entry (R20, R22,
R36, R94, R109, R143, R147). A frame that was received together with the expiry may still be taken, and is stray (log
entry 27). -/
def Obligations.UnansweredAbortRepeatsThenEnds : Prop :=
  ∀ (s : State) (x : Exchange) (t : Tag) (f : Fatal) (r : Nat) (b : Byte),
    s.host.held = false → s.link.replyTimer = some b → s.link.sending = none →
    (∀ c, s.link.op = .exchange c → s.slots[c.slot] = some x → x.st = .connected t r (some f) → c.abortSent = true →
      (r < c.retryLimit → Sys2Proof.Machine.exec .replyTimerExpiry s = .next { s with
        slots := s.slots.set c.slot (some { x with st := .connected t (r + 1) (some f) })
        link := sendingLink (.exchange c) (abortOf x.station t) }.afterExpiry) ∧
      (c.retryLimit ≤ r → Sys2Proof.Machine.exec .replyTimerExpiry s =
        .next ({ (s.afterDone c.slot x f.final none []).missed x.station with link := idleLink }.choose.afterExpiry))) ∧
    (∀ n limit, s.link.op = .abortVisit n limit → s.slots[n] = some x → x.st = .aborting t f (some r) →
      (r < limit → Sys2Proof.Machine.exec .replyTimerExpiry s = .next { s with
        slots := s.slots.set n (some { x with st := .aborting t f (some (r + 1)) })
        link := sendingLink (.abortVisit n limit) (abortOf x.station t) }.afterExpiry) ∧
      (limit ≤ r → Sys2Proof.Machine.exec .replyTimerExpiry s =
        .next ({ (s.afterDone n x f.final none []).missed x.station with link := idleLink }.choose.afterExpiry))) ∧
    ∀ w e es, s.link.op = .poll w → w.cleanup = e :: es →
      (e.slot = none → Sys2Proof.Machine.exec .replyTimerExpiry s =
        .next ((s.missed e.station).cleanupGoesOn w es).afterExpiry) ∧
      ∀ n k, e.slot = some n → s.slots[n] = some x → x.st = .aborting t f k → (∀ d ∈ es, d.slot ≠ some n) →
        Sys2Proof.Machine.exec .replyTimerExpiry s =
          .next (((s.afterDone n x f.final none []).missed e.station).cleanupGoesOn w es).afterExpiry

/-- A reply slot that runs out counts a miss against its station, and then the next reply slot opens with REPLY_TIME as
it stands; after the last one the window ends when its cleanup list is empty, and else the ABORT of its first entry is
sent, a slot bound to that entry leaving the abort-visit list with retry count 0 (R22, R94, R105, R107, R109). A REPLY
that was received together with the running-out may still be taken, and is stray (log entry 27). -/
def Obligations.ReplySlotTimeoutCountsMiss : Prop :=
  ∀ (s : State) (w : PollWindow) (a : StationNo), s.host.held = false → s.link.op = .poll w →
    s.link.turn = .replySlot a →
    (∀ b rest, w.left = a :: b :: rest → Sys2Proof.Machine.exec .replySlotTimeout s =
      .next { s.missed a with link := nextSlotLink w b rest s.host.replyTime }) ∧
    (w.left = [a] → Sys2Proof.Machine.exec .replySlotTimeout s =
      .next ((s.missed a).cleanupGoesOn { w with left := [] } w.cleanup).afterExpiry)

/-! ### Frames received -/

/-- A damaged frame records one link fault, CRC for a length field above 64 or a wrong check value whatever the kind
code, STRAY for an unknown kind code; a frame that is not from the turn holder, that carries another tag than the
exchange concerned, or that is not a REPLY in an open reply slot is stray, and records a STRAY link fault. Neither does
anything else, and a frame that ends while the head sends or while a link reset runs not even that (R29, R30, R37, R144,
R150, R183). A frame received together with an expiry that was taken first is not one in progress while the head sends:
it finds the turn with the head, and is stray (R36). The tag of a REPLY is not checked. That a damaged frame received
together with such an expiry records its fault although the head sends, and that the tag of a POLL is checked, is the
model's choice (log entries 27, 28). -/
def Obligations.BadFramesOnlyRecordFaults : Prop :=
  (∀ (s : State) (b0 b1 b2 : Byte) (rest : List Byte) (together : Bool), s.host.held = false →
    (s.hears together →
      ((64 < b2.toNat ∧ rest.length = 66) ∨
        (b2.toNat ≤ 64 ∧ rest.length = b2.toNat + 2 ∧
          rest.drop b2.toNat ≠ checkBytes (b0 :: b1 :: b2 :: rest.take b2.toNat)) →
        Sys2Proof.Machine.exec (.frameDamaged ⟨b0 :: b1 :: b2 :: rest, together⟩) s = .next (s.badFrameTaken .crc)) ∧
      (b2.toNat ≤ 64 → rest.length = b2.toNat + 2 →
        rest.drop b2.toNat = checkBytes (b0 :: b1 :: b2 :: rest.take b2.toNat) →
        b0.toNat / 16 = 0 ∨ 13 ≤ b0.toNat / 16 →
        Sys2Proof.Machine.exec (.frameDamaged ⟨b0 :: b1 :: b2 :: rest, together⟩) s = .next (s.badFrameTaken .stray))) ∧
    (¬ s.hears together →
      Sys2Proof.Machine.exec (.frameDamaged ⟨b0 :: b1 :: b2 :: rest, together⟩) s = .next s)) ∧
  (∀ (s : State) (f : Received) (k : HeadOnlyKind) (c : Instr), s.host.held = false → f.payload.length ≤ 64 →
    c ∈ [Instr.acceptReceived f, .refuseReceived f, .deferReceived f, .closeReceived f, .ackReceived f,
      .dataReceived f, .replyReceived f, .headOnlyKindReceived k f] →
    (s.hears f.withExpiry →
      s.link.turn = .nobody ∨ s.link.turn = .head ∨
      (∃ a, (s.link.turn = .station a ∨ s.link.turn = .replySlot a) ∧ f.address ≠ addressOf a) ∨
      (∃ a, s.link.turn = .station a ∧ c ≠ .replyReceived f ∧
        s.concernedTag ≠ some f.tag) ∨
      (∃ a, s.link.turn = .replySlot a ∧ c ≠ .replyReceived f) →
      Sys2Proof.Machine.exec c s = .next (s.badFrameTaken .stray)) ∧
    (¬ s.hears f.withExpiry → Sys2Proof.Machine.exec c s = .next s))

/-- ACCEPT for a WRITE in OPENING with a credit of 1 to 4: the credit is recorded, and no done count and no retry count
moves. While data remains SENDING is entered, and the first DATA frame of a burst of the lesser of credit and frames
remaining is sent from the page chain; with the done count at count, as of a WRITE deferred there and resumed, CLOSING
is entered and ACK with credit 0 is sent (R34, R41, R47, R53, R64, R93). That the phase changes as the head begins to
send its ACK or ABORT is the model's choice (log entry 29). -/
def Obligations.AcceptStartsWriteBurst : Prop :=
  ∀ (s : State) (c : Connection) (x : Exchange) (t : Tag) (r : Nat) (f : Received) (credit : Byte),
    s.awaitsStation c x t r none → f.fits x t → c.phase = .opening → x.op = Op.write → x.inRange = true →
    f.payload = [credit] → 1 ≤ credit.toNat → credit.toNat ≤ 4 →
    (x.doneCount < x.count →
      let n := min credit.toNat (frames x.count - x.doneCount / 64)
      ∃ g, Sys2Proof.Machine.exec (.acceptReceived f) s = .next { s.seen x.station with
          link := sendingLink (.exchange { c with
            phase := .sending, stationCredit := some credit.toNat, burst := n, nextSend := c.oldest }) g } ∧
        g.kind = .data ∧ g.body.address = addressOf x.station ∧ g.body.tag = t ∧ g.body.seq = c.oldest ∧
        (g.body.turn = true ↔ n = 1) ∧ (g.body.last = true ↔ x.doneCount / 64 + 1 = frames x.count) ∧
        g.body.payload = (List.range (min 64 (x.count - 64 * (x.doneCount / 64)))).map fun i =>
          Memory.chainByte s.stage.mem x.chain (64 * (x.doneCount / 64) + i)) ∧
    (x.doneCount = x.count → Sys2Proof.Machine.exec (.acceptReceived f) s = .next { s.seen x.station with
      link := sendingLink (.exchange { c with phase := .closing, stationCredit := some credit.toNat })
        (ackOf x t c.nextSend 0) })

/-- ACCEPT for a READ in OPENING, whatever its credit byte, is a grant point: with data remaining the head reserves as
many pages as the least of credit max, frames remaining and free pages, and sends ACK with that credit; with no page
free it parks the slot for POOL (R48, R59, R60, R74, R93, R127, R130). That the phase changes as the head begins to send
its ACK or ABORT is the model's choice (log entry 29). -/
def Obligations.AcceptGrantsReadCredit : Prop :=
  ∀ (s : State) (c : Connection) (x : Exchange) (t : Tag) (r : Nat) (f : Received) (any : Byte),
    s.awaitsStation c x t r none → f.fits x t → c.phase = .opening → x.op = Op.read → s.stage.reserved = [] →
    f.payload = [any] → c.dataEnded = false → x.doneCount < x.count →
    let credit := min s.stations[x.station].creditMax (min (frames x.count - x.doneCount / 64) s.stage.free.length)
    (1 ≤ credit → Sys2Proof.Machine.exec (.acceptReceived f) s = .next { s.seen x.station with
      stage := { s.stage with free := s.stage.free.drop credit, reserved := s.stage.free.take credit }
      link := sendingLink
        (.exchange { c with phase := .awaiting, burst := credit, progress := x.doneCount, discarding := false })
        { kind := .ack, body :=
          { address := addressOf x.station, tag := t, seq := c.nextExpected, turn := true, last := false
            payload := [BitVec.ofNat 8 credit] } } }) ∧
    (credit = 0 → ∃ g, Sys2Proof.Machine.exec (.acceptReceived f) s = .next { s.seen x.station with
        slots := s.slots.set c.slot (some { x with st := .parkedPool t })
        arb := { s.arb with poolList := s.arb.poolList ++ [c.slot] }
        link := sendingLink .parking g } ∧
      g.kind = .parked ∧ g.body.address = addressOf x.station ∧ g.body.tag = t ∧ g.body.turn = false ∧
      g.body.payload = [BitVec.ofNat 8 x.doneCount, BitVec.ofNat 8 (x.doneCount / 256), 2])

/-- REFUSE in OPENING: BUSY to a CALL raises the busy count and, below 8, frees the tag, queues the slot at the tail of
its level and puts the station in backoff; at 8 it ends the slot BUSY_LIMIT; BUSY to a RESUME and any other reason
but 0 end it REFUSED with the reason. With a pending status set, REFUSE ends the slot with it (R18, R67, R95), which
holds for reason 0 too by R146 (log entry 17). -/
def Obligations.RefuseRequeuesOrEnds : Prop :=
  ∀ (s : State) (c : Connection) (x : Exchange) (t : Tag) (r : Nat) (p : Option Fatal) (f : Received) (reason : Byte),
    s.awaitsStation c x t r p → f.fits x t → f.payload = [reason] →
    (p = none → c.phase = .opening → reason = 1 → c.resumed = false → x.busyCount + 1 < 8 →
      Sys2Proof.Machine.exec (.refuseReceived f) s = .next ({ s.seen x.station with
        slots := s.slots.set c.slot (some { x with busyCount := x.busyCount + 1, st := .queued })
        stations := (s.seen x.station).stations.set x.station { (s.seen x.station).stations[x.station] with
          tagMap := s.stations[x.station].tagMap.set t none, backoff := true }
        arb := { s.arb with
          level1 := if x.urgent then s.arb.level1 ++ [c.slot] else s.arb.level1
          level0 := if x.urgent then s.arb.level0 else s.arb.level0 ++ [c.slot] }
        link := idleLink }.choose)) ∧
    (p = none → c.phase = .opening → reason = 1 → c.resumed = false → x.busyCount = 7 →
      Sys2Proof.Machine.exec (.refuseReceived f) s = .next ({ (s.seen x.station).afterDone c.slot
        { x with busyCount := 8 } .busyLimit (some 1) [] with link := idleLink }.choose)) ∧
    (p = none → c.phase = .opening → (reason = 1 ∧ c.resumed = true) ∨ 2 ≤ reason.toNat →
      Sys2Proof.Machine.exec (.refuseReceived f) s = .next ({ (s.seen x.station).afterDone c.slot x .refused
        (some reason) [] with link := idleLink }.choose)) ∧
    ∀ q, p = some q → Sys2Proof.Machine.exec (.refuseReceived f) s = .next ({ (s.seen x.station).afterDone c.slot x
      q.final (some reason) [] with link := idleLink }.choose)

/-- A valid DEFER with no pending status parks the slot for STATION at its offset: the deadline is the timebase plus the
park limit modulo 2^32, it stands behind every deadline of at most its remaining time, the reservations of a READ
return, and PARKED is sent. Its offset is valid when it is the done count, or for a WRITE in AWAITING a multiple of
64, or count, from the done count to the end of the burst (R49, R56, R63, R71, R88). -/
def Obligations.DeferParksForStation : Prop :=
  ∀ (s : State) (c : Connection) (x : Exchange) (t : Tag) (r : Nat) (f : Received) (o : Nat),
    s.awaitsStation c x t r none → f.fits x t → o < 65536 →
    f.payload = [BitVec.ofNat 8 o, BitVec.ofNat 8 (o / 256)] →
    (c.phase = .opening ∧ o = x.doneCount) ∨ (c.phase = .awaiting ∧ x.op = Op.read ∧ c.dataEnded = false ∧ o = x.doneCount) ∨
      (c.phase = .awaiting ∧ x.op = Op.write ∧ x.doneCount ≤ o ∧ o ≤ min x.count (x.doneCount + 64 * c.burst) ∧
        (o % 64 = 0 ∨ o = x.count)) →
    let limit := s.stations[x.station].parkLimit
    ∃ g, ∃ before after : List SlotNo, Sys2Proof.Machine.exec (.deferReceived f) s = .next { s.seen x.station with
        slots := s.slots.set c.slot (some { x with
          doneCount := o, st := .parkedStation t (s.park.timebase + limit.setWidth 32) })
        stage :=
          if x.op = Op.read then { s.stage with free := s.stage.reserved ++ s.stage.free, reserved := [] } else s.stage
        park := { s.park with deadlines := before ++ c.slot :: after }
        link := sendingLink .parking g } ∧
      s.park.deadlines = before ++ after ∧ (∀ m ∈ before, m ≠ c.slot → s.remaining m ≤ limit.toNat) ∧
      (∀ m rest, after = m :: rest → m ≠ c.slot → limit.toNat < s.remaining m) ∧
      g.kind = .parked ∧ g.body.address = addressOf x.station ∧ g.body.tag = t ∧ g.body.turn = false ∧
      g.body.payload = [BitVec.ofNat 8 o, BitVec.ofNat 8 (o / 256), 1]

/-- CLOSE of a permitted length before ABORT has been sent ends the slot by its status byte, whatever the pending
status: STATION_ERROR for a status other than 0, SHORT for a READ or WRITE below its count, else OK; result bytes
are kept for CONTROL only. After ABORT, in the abort phase, in an abort visit and in a cleanup wait, a CLOSE of any
status and any length ends the slot with the pending status and no result bytes; the visit is then over, and a cleanup
goes on with its next entry, whether the entry answered was bound or not (R19, R22, R25, R33, R109, R142, R146, R148). The station status of a CLOSE of
length 0 is a free value (log entry 1), of which nothing is said. -/
def Obligations.CloseEndsTheSlot : Prop :=
  (∀ (s : State) (c : Connection) (x : Exchange) (t : Tag) (r : Nat) (p : Option Fatal) (f : Received)
    (status : Byte) (result : List Byte),
    s.host.held = false → s.link.op = .exchange c → s.link.turn = .station x.station → s.link.sending = none →
    s.slots[c.slot] = some x → x.st = .connected t r p → f.fits x t → f.payload = status :: result →
    (c.abortSent = false → result.length ≤ (if x.op = Op.control then 8 else 0) →
      Sys2Proof.Machine.exec (.closeReceived f) s = .next ({ (s.seen x.station).afterDone c.slot x
        (if status ≠ 0 then .stationError
         else if x.op ≠ Op.control ∧ x.doneCount < x.count then .short else .ok)
        (some status) result with link := idleLink }.choose)) ∧
    (∀ q, c.abortSent = true → p = some q →
      Sys2Proof.Machine.exec (.closeReceived f) s = .next ({ (s.seen x.station).afterDone c.slot x q.final
        (some status) [] with link := idleLink }.choose))) ∧
  (∀ (s : State) (n : SlotNo) (limit : Nat) (x : Exchange) (t : Tag) (q : Fatal) (r : Option Nat) (f : Received)
    (status : Byte) (more : List Byte),
    s.host.held = false → s.link.op = .abortVisit n limit → s.link.turn = .station x.station → s.link.sending = none →
    s.slots[n] = some x → x.st = .aborting t q r → f.fits x t → f.payload = status :: more →
    Sys2Proof.Machine.exec (.closeReceived f) s = .next ({ (s.seen x.station).afterDone n x q.final (some status) [] with
      link := idleLink }.choose)) ∧
  (∀ (s : State) (w : PollWindow) (e : CleanupEntry) (es : List CleanupEntry) (f : Received) (status : Byte)
    (more : List Byte),
    s.cleanupAwaits w e es → f.address = addressOf e.station → f.tag = e.tag → f.payload.length ≤ 64 →
    (e.slot = none → Sys2Proof.Machine.exec (.closeReceived f) s =
      .next ((s.seen e.station).cleanupGoesOn w es)) ∧
    ∀ n x t q r, e.slot = some n → s.slots[n] = some x → x.st = .aborting t q r → (∀ d ∈ es, d.slot ≠ some n) →
      (f.payload = status :: more → Sys2Proof.Machine.exec (.closeReceived f) s =
        .next (((s.seen e.station).afterDone n x q.final (some status) []).cleanupGoesOn w es)) ∧
      (f.payload = [] → ∃ given : Option Byte, Sys2Proof.Machine.exec (.closeReceived f) s =
        .next ({ (s.seen e.station).afterDone n x q.final given [] with freeCount := s.freeCount + 1 }.cleanupGoesOn
          w es))) ∧
  ∀ (s : State) (n : SlotNo) (x : Exchange) (t : Tag) (q : Fatal) (f : Received),
    s.host.held = false → s.link.turn = .station x.station → s.link.sending = none → s.slots[n] = some x → f.fits x t →
    f.payload = [] →
    (∃ c r, s.link.op = .exchange c ∧ c.slot = n ∧ c.abortSent = true ∧ x.st = .connected t r (some q)) ∨
      (∃ limit r, s.link.op = .abortVisit n limit ∧ x.st = .aborting t q r) →
    ∃ status : Option Byte, Sys2Proof.Machine.exec (.closeReceived f) s =
      .next ({ (s.seen x.station).afterDone n x q.final status [] with
        link := idleLink, freeCount := s.freeCount + 1 }.choose)

/-- ACK in AWAITING for a WRITE: with distance d from the oldest number, at most the burst size, and credit 1 to 4, or 0
once all is acknowledged, the done count moves to the first unacknowledged byte, an advance zeroes the retry count, and
then CLOSING follows at the count, a new burst from there otherwise; a distance below the burst size is a recovery, and
at RETRY_LIMIT the data phases are exhausted. An ACK with another credit, or with a distance beyond the burst, is a
protocol error (R5, R41, R53, R54, R55, R64, R65, R66, R67). That the phase changes as the head begins to send its ACK
or ABORT is the model's choice (log entry 29). That next-to-send goes back as the burst begins is the model's choice too
(log entry 30). -/
def Obligations.AckAcknowledgesFrames : Prop :=
  ∀ (s : State) (c : Connection) (x : Exchange) (t : Tag) (r : Nat) (f : Received) (credit : Byte) (d moved : Nat),
    s.awaitsStation c x t r none → f.fits x t → c.phase = .awaiting → x.op = Op.write → x.inRange = true →
    f.payload = [credit] → d = (f.seq - c.oldest).toNat → moved = min x.count (x.doneCount + 64 * d) →
    let after := if x.doneCount < moved then 0 else r
    let acked := { c with oldest := f.seq, nextSend := f.seq }
    (d ≤ c.burst → moved = x.count → credit.toNat ≤ 4 →
      Sys2Proof.Machine.exec (.ackReceived f) s = .next { s.seen x.station with
        slots := s.slots.set c.slot (some { x with doneCount := moved, st := .connected t after none })
        link := sendingLink (.exchange { acked with phase := .closing }) (ackOf x t f.seq 0) }) ∧
    (d ≤ c.burst → moved < x.count → 1 ≤ credit.toNat → credit.toNat ≤ 4 →
      let granted := { acked with stationCredit := some credit.toNat }
      (d = c.burst ∨ after < c.retryLimit → Sys2Proof.Machine.exec (.ackReceived f) s =
        .next ((s.seen x.station).burstFrom granted { x with doneCount := moved } t
          (if d < c.burst then after + 1 else after) credit.toNat)) ∧
      (d < c.burst → c.retryLimit ≤ after → Sys2Proof.Machine.exec (.ackReceived f) s =
        .next ((s.seen x.station).abortPhaseOf granted { x with doneCount := moved } t .linkError))) ∧
    (4 < credit.toNat ∨ c.burst < d ∨ (moved < x.count ∧ credit = 0) → Sys2Proof.Machine.exec (.ackReceived f) s =
      .next ((s.seen x.station).abortPhaseOf c x t .protocol))

/-- A DATA frame of a READ in AWAITING. In sequence, of 64 bytes or with LAST set, within the count and the grant, it
fills the oldest reserved page, the rest of the page 0, which joins the tail of the chain; it moves the done count and
the next expected number and zeroes the retry count. With TURN and LAST clear it restarts the reply timer and the
station goes on; with either set it returns the turn to a grant point: a fresh credit and ACK, a park for POOL, or, when
LAST was set or the count is reached, ACK with credit 0 and CLOSING. Out of sequence it is discarded with the rest of
its burst; if it returned the turn with no progress in the burst and data remaining, that is a recovery, and at
RETRY_LIMIT the data phases are exhausted (R36, R40, R41, R42, R59 to R62, R64, R65, R93, R129, R131). That an
out-of-sequence frame of length 0 is discarded as well is the model's reading of R33 and R41 (log entry 15). That the
phase changes as the head begins to send its ACK or ABORT is the model's choice (log entry 29). -/
def Obligations.DataFillsReservedPages : Prop :=
  ∀ (s : State) (c : Connection) (x : Exchange) (t : Tag) (r : Nat) (f : Received),
    s.awaitsStation c x t r none → f.fits x t → c.phase = .awaiting → x.op = Op.read →
    (∀ (p : Page) (rest : List Page), f.seq = c.nextExpected → c.discarding = false → c.dataEnded = false →
      f.payload.length = 64 ∨ (f.last = true ∧ 1 ≤ f.payload.length) → x.doneCount + f.payload.length ≤ x.count →
      c.progress ≤ x.doneCount → s.stage.reserved = p :: rest → Memory.wf s.stage.mem →
      ∃ m : Memory,
        (let moved := x.doneCount + f.payload.length
         let filled := { x with chain := x.chain ++ [p], doneCount := moved }
         let c' := { c with nextExpected := c.nextExpected + 1, dataEnded := f.last || moved == x.count }
         let s' : State := { s.seen x.station with stage := { s.stage with reserved := rest, mem := m } }
         Sys2Proof.Machine.exec (.dataReceived f) s = .next (
          if f.turn = true ∨ f.last = true then s'.grantOf c' filled t 0
          else { s' with
            slots := s.slots.set c.slot (some { filled with st := .connected t 0 none })
            link := { s.link with op := .exchange c', replyTimer := some s.host.replyTime } })) ∧
        Memory.wf m ∧
        ∀ (q : Page) (o : Nat), o < 64 → Memory.readByte m (64 * q.val + o) =
          if q = p then f.payload.getD o 0 else Memory.readByte s.stage.mem (64 * q.val + o)) ∧
    (f.seq ≠ c.nextExpected ∨ c.discarding = true →
      (f.turn = false → f.last = false → Sys2Proof.Machine.exec (.dataReceived f) s = .next { s.seen x.station with
        link := { s.link with
          op := .exchange { c with discarding := true }, replyTimer := some s.host.replyTime } }) ∧
      (f.turn = true ∨ f.last = true →
        let noProgress : Prop := x.doneCount = c.progress ∧ c.dataEnded = false ∧ x.doneCount < x.count
        (¬ noProgress → Sys2Proof.Machine.exec (.dataReceived f) s = .next ((s.seen x.station).grantOf c x t r)) ∧
        (noProgress → r < c.retryLimit →
          Sys2Proof.Machine.exec (.dataReceived f) s = .next ((s.seen x.station).grantOf c x t (r + 1))) ∧
        (noProgress → c.retryLimit ≤ r → Sys2Proof.Machine.exec (.dataReceived f) s =
          .next ((s.seen x.station).abortPhaseOf { c with discarding := true } x t .linkError))))

/-- The protocol errors of R66, kind by kind, in a connection with no pending status: a kind the phase does not expect,
REPLY and the head-only kinds in every phase, a malformed frame, an ACCEPT credit, ACK or REFUSE reason out of range, a
DEFER that names no valid park point, and a DATA frame in sequence of bad shape, beyond count, beyond grant or after the
data has ended. Pending becomes PROTOCOL, nothing else of the exchange moves, and the head's turn carries ABORT with a
fresh retry count; a DATA frame that leaves the turn with the station restarts the reply timer and ABORT waits. The tag
of a REPLY is not checked (R30, R33, R34, R36, R46 to R49, R54, R56, R57, R61, R63, R64, R66, R67, R68). That the phase
changes as the head begins to send its ACK or ABORT is the model's choice (log entry 29). -/
def Obligations.ProtocolErrorsCondemn : Prop :=
  ∀ (s : State) (c : Connection) (x : Exchange) (t : Tag) (r : Nat) (f : Received) (k : HeadOnlyKind) (i : Instr),
    s.awaitsStation c x t r none → f.fitsFor i x.station t →
    isProtocolError c x s.stage.reserved i →
    i ∈ [Instr.acceptReceived f, .refuseReceived f, .deferReceived f, .closeReceived f, .ackReceived f,
      .dataReceived f, .replyReceived f, .headOnlyKindReceived k f] →
    (i ≠ .dataReceived f ∨ f.turn = true ∨ f.last = true →
      Sys2Proof.Machine.exec i s = .next ((s.seen x.station).abortPhaseOf c x t .protocol)) ∧
    (i = .dataReceived f → f.turn = false → f.last = false →
      Sys2Proof.Machine.exec i s = .next { s.seen x.station with
        slots := s.slots.set c.slot (some { x with st := .connected t r (some .protocol) })
        link := { s.link with replyTimer := some s.host.replyTime } })

/-- Frames that count for the turn only. In a connection with a pending status set and ABORT not sent: every frame but a
CLOSE of a permitted length and a REFUSE of length 1. After ABORT, in the abort phase, in an abort visit and in a
cleanup wait: every frame but CLOSE. Nothing of the exchange moves. A frame that leaves the turn with the station
restarts the reply timer. One that returns it: the head's turn carries ABORT with a fresh retry count; after ABORT a
recovery is due, so that ABORT is sent again, or at RETRY_LIMIT the slot ends with its pending status and a miss is
counted; and a cleanup wait ends with no station status and no miss (R30, R33, R34, R36, R67, R68, R109, R144, R146,
R148, R150). The tag of a REPLY is not checked. That a malformed REFUSE counts for the turn only is the model's reading
(log entry 17). That the phase changes as the head begins to send ABORT is the model's choice (log entry 29). -/
def Obligations.FramesThatCountForTheTurnOnly : Prop :=
  ∀ (s : State) (x : Exchange) (t : Tag) (q : Fatal) (r : Nat) (f : Received) (k : HeadOnlyKind) (i : Instr)
    (returns : Bool),
    s.host.held = false → s.link.sending = none → f.payload.length ≤ 64 →
    i ∈ [Instr.acceptReceived f, .refuseReceived f, .deferReceived f, .closeReceived f, .ackReceived f,
      .dataReceived f, .replyReceived f, .headOnlyKindReceived k f] →
    (returns = false ↔ i = .dataReceived f ∧ f.turn = false ∧ f.last = false) →
    (∀ c, s.link.op = .exchange c → s.link.turn = .station x.station → s.slots[c.slot] = some x →
      x.st = .connected t r (some q) → f.fitsFor i x.station t →
      (returns = false → Sys2Proof.Machine.exec i s = .next { s.seen x.station with
        link := { s.link with replyTimer := some s.host.replyTime } }) ∧
      (returns = true → c.abortSent = false → (i = .refuseReceived f → f.payload.length ≠ 1) →
        (i = .closeReceived f → f.payload.length = 0 ∨ (if x.op = Op.control then 9 else 1) < f.payload.length) →
        Sys2Proof.Machine.exec i s = .next ((s.seen x.station).abortPhaseOf c x t q)) ∧
      (returns = true → c.abortSent = true → i ≠ .closeReceived f →
        (r < c.retryLimit → Sys2Proof.Machine.exec i s = .next { s.seen x.station with
          slots := s.slots.set c.slot (some { x with st := .connected t (r + 1) (some q) })
          link := sendingLink (.exchange c) (abortOf x.station t) }) ∧
        (c.retryLimit ≤ r → Sys2Proof.Machine.exec i s = .next (
          { ((s.seen x.station).afterDone c.slot x q.final none []).missed x.station with link := idleLink }.choose)))) ∧
    (∀ n limit, s.link.op = .abortVisit n limit → s.link.turn = .station x.station → s.slots[n] = some x →
      x.st = .aborting t q (some r) → f.fitsFor i x.station t → i ≠ .closeReceived f →
      (returns = false → Sys2Proof.Machine.exec i s = .next { s.seen x.station with
        link := { s.link with replyTimer := some s.host.replyTime } }) ∧
      (returns = true → r < limit → Sys2Proof.Machine.exec i s = .next { s.seen x.station with
        slots := s.slots.set n (some { x with st := .aborting t q (some (r + 1)) })
        link := sendingLink (.abortVisit n limit) (abortOf x.station t) }) ∧
      (returns = true → limit ≤ r → Sys2Proof.Machine.exec i s = .next (
        { ((s.seen x.station).afterDone n x q.final none []).missed x.station with link := idleLink }.choose))) ∧
    ∀ w e es, s.cleanupAwaits w e es → f.fitsFor i e.station e.tag → i ≠ .closeReceived f →
      (returns = false → Sys2Proof.Machine.exec i s = .next { s.seen e.station with
        link := { s.link with replyTimer := some s.host.replyTime } }) ∧
      (returns = true → e.slot = none →
        Sys2Proof.Machine.exec i s = .next ((s.seen e.station).cleanupGoesOn w es)) ∧
      ∀ n p, returns = true → e.slot = some n → s.slots[n] = some x → x.st = .aborting t q p →
        (∀ d ∈ es, d.slot ≠ some n) →
        Sys2Proof.Machine.exec i s =
          .next (((s.seen e.station).afterDone n x q.final none []).cleanupGoesOn w es)

/-- A REPLY with no recall in its reply slot is a frame seen, clears backoff, passes an attention report on and sets
attention pending, and ends the slot. A malformed one is a frame seen and a STRAY link fault, leaves backoff, acts on no
recall and no attention, and ends the slot too. Then the next slot opens, or, after the last, the cleanup begins or the
window ends (R32, R33, R93, R95, R96, R105, R106, R107, R109). -/
def Obligations.ReplyPassesAttentionOn : Prop :=
  ∀ (s : State) (w : PollWindow) (a : StationNo) (rest : List StationNo) (f : Received),
    s.slotOpenFor w a rest → f.address = addressOf a →
    (∀ flags tail code, f.payload = flags :: tail → flags.getLsbD 0 = false → attentionIs flags tail code →
      Sys2Proof.Machine.exec (.replyReceived f) s = .next (((s.presenceTaken a).attended a code).slotGoesOn w rest)) ∧
    (f.payload.length ≤ 64 →
      f.payload = [] ∨ (∃ flags tail, f.payload = flags :: tail ∧
        tail.length ≠ (if flags.getLsbD 0 then 3 else 0) + (if flags.getLsbD 1 then 1 else 0)) →
      Sys2Proof.Machine.exec (.replyReceived f) s = .next (((s.seen a).faulted .stray).slotGoesOn w rest))

/-- A REPLY with a recall is taken in the order of R106: presence, the recall, then an attention report if it carries one,
and its slot ends. The recall: matching a PARKED(STATION) slot's done count, or a PARKED(POOL) slot's while a page is
free, it makes the slot RECALLED at the tail of the recall list; a PARKED(STATION) slot recalled at another offset is
condemned PROTOCOL; a tag bound to no slot is an ORPHAN link fault and an ABORT for the cleanup; an ABORTING slot gets a
cleanup ABORT bound to it; a tag byte of 8 to 255 is a STRAY link fault and is not judged (R32, R76 to R82, R93, R96,
R105, R106, R108, R109). -/
def Obligations.RecallIsJudged : Prop :=
  ∀ (s : State) (w : PollWindow) (a : StationNo) (rest : List StationNo) (f : Received) (flags named low high : Byte)
    (tail : List Byte) (code : Option Byte),
    s.slotOpenFor w a rest → f.address = addressOf a → f.payload = flags :: named :: low :: high :: tail →
    flags.getLsbD 0 = true → attentionIs flags tail code →
    let o := (high ++ low).toNat
    let cleared := s.presenceTaken a
    (8 ≤ named.toNat → Sys2Proof.Machine.exec (.replyReceived f) s =
      .next (((cleared.faulted .stray).attended a code).slotGoesOn w rest)) ∧
    ∀ g : Tag, named.toNat = g.val →
      (s.stations[a].tagMap[g] = none → Sys2Proof.Machine.exec (.replyReceived f) s =
        .next (((cleared.faulted .orphan).attended a code).slotGoesOn
          (w.withEntry { station := a, tag := g, slot := none }) rest)) ∧
      ∀ n x, s.stations[a].tagMap[g] = some n → s.slots[n] = some x →
        (∀ t d, x.st = .parkedStation t d → o = x.doneCount → Sys2Proof.Machine.exec (.replyReceived f) s =
          .next (((cleared.recalledTo n x t .station).attended a code).slotGoesOn w rest)) ∧
        (∀ t d, x.st = .parkedStation t d → o ≠ x.doneCount → Sys2Proof.Machine.exec (.replyReceived f) s =
          .next (((cleared.condemnedTo n x t .protocol).attended a code).slotGoesOn w rest)) ∧
        (∀ t, x.st = .parkedPool t → o = x.doneCount → s.stage.free ≠ [] →
          Sys2Proof.Machine.exec (.replyReceived f) s =
            .next (((cleared.recalledTo n x t .pool).attended a code).slotGoesOn w rest)) ∧
        (∀ t, x.st = .parkedPool t → o ≠ x.doneCount ∨ s.stage.free = [] →
          Sys2Proof.Machine.exec (.replyReceived f) s = .next ((cleared.attended a code).slotGoesOn w rest)) ∧
        (∀ t q k, x.st = .aborting t q k → Sys2Proof.Machine.exec (.replyReceived f) s =
          .next ((cleared.attended a code).slotGoesOn
            (w.withEntry { station := a, tag := g, slot := some n }) rest))

/-! ### Frames sent -/

/-- CALL, RESUME, the head's ACK and ABORT pass the turn when they have been sent: the station addressed holds it, and
the reply timer starts with REPLY_TIME as it stands. PARKED sent ends the connection and the link falls idle; POLL
sent clears poll-due and the poll-requested mark and opens the reply slot of the lowest station of the mask (R34, R35,
R36, R71, R74, R103, R105). -/
def Obligations.SentFramesPassTheTurnOrEnd : Prop :=
  (∀ (s : State) (f : Frame) (a : StationNo) (c : Instr), s.host.held = false → s.link.sending = some f →
    f.body.address = addressOf a →
    (c, f.kind) ∈ [(Instr.callSent, FrameKind.call), (.resumeSent, .resume), (.ackFrameSent, .ack),
      (.abortFrameSent, .abort)] →
    Sys2Proof.Machine.exec c s = .next { s with link := { s.link with
      turn := .station a, replyTimer := some s.host.replyTime, sending := none, lateOpen := false } }) ∧
  (∀ (s : State) (f : Frame), s.host.held = false → s.link.sending = some f →
    (f.kind = .parked → s.link.op = .parking →
      Sys2Proof.Machine.exec .parkedSent s = .next ({ s with link := idleLink }.choose)) ∧
    ∀ w a rest, f.kind = .poll → s.link.op = .poll w → w.mask = a :: rest →
      Sys2Proof.Machine.exec .pollSent s = .next { s with
        arb := { s.arb with pollDue := false, pollRequested := false }
        link := nextSlotLink w a rest s.host.replyTime })

/-- A DATA frame has been sent: the TURN frame passes the turn, starts the reply timer and enters AWAITING; any other is
followed by the next frame of the burst, with the bytes, length and LAST of its place in the exchange, or, when a
pending status is set, by ABORT in place of the rest (R34, R36, R41, R53, R68). That the phase changes as the head
begins to send its ACK or ABORT is the model's choice (log entry 29). -/
def Obligations.DataFrameSentGoesOn : Prop :=
  ∀ (s : State) (c : Connection) (x : Exchange) (t : Tag) (r : Nat) (p : Option Fatal) (f : Frame),
    s.host.held = false → s.link.op = .exchange c → s.slots[c.slot] = some x → x.st = .connected t r p →
    s.link.sending = some f → f.kind = .data → f.body.address = addressOf x.station →
    let i := (f.body.seq + 1 - c.oldest).toNat
    (f.body.turn = true → Sys2Proof.Machine.exec .dataFrameSent s = .next { s with
      link := { op := .exchange { c with phase := .awaiting, nextSend := f.body.seq + 1 }
                turn := .station x.station, replyTimer := some s.host.replyTime, sending := none
                lateOpen := false } }) ∧
    (f.body.turn = false → p = none → ∃ g, Sys2Proof.Machine.exec .dataFrameSent s = .next { s with
        link := sendingLink (.exchange { c with nextSend := f.body.seq + 1 }) g } ∧
      g.kind = .data ∧ g.body.address = addressOf x.station ∧ g.body.tag = t ∧ g.body.seq = f.body.seq + 1 ∧
      (g.body.turn = true ↔ i + 1 = c.burst) ∧ (g.body.last = true ↔ x.doneCount / 64 + i + 1 = frames x.count) ∧
      (x.op = Op.write → x.inRange = true → x.doneCount / 64 + i < frames x.count →
        g.body.payload = writeBytes s.stage.mem x (x.doneCount / 64 + i))) ∧
    (f.body.turn = false → ∀ q, p = some q → Sys2Proof.Machine.exec .dataFrameSent s =
      .next (s.abortPhaseOf { c with nextSend := f.body.seq + 1 } x t q))

/-! ### The arbiter -/

/-- The ranks of a choice. An abort visit first, then the head of the recall list, then the head of the pool-wait list
while a page is free: the slot leaves its list, RETRY_LIMIT is taken, and ABORT or RESUME is being sent, RESUME with the
done count as offset and the parameters of a CONTROL; a new connection record begins at the done count. With none of
these, a poll when poll-due is set, some station is not OFFLINE, and a reason holds: a PARKED(STATION) slot, a SILENT
station, a backoff, POLL_ALWAYS or the poll-requested mark; its mask is every station not OFFLINE, in ascending
address, and POLL carries a bit for each (R16, R31, R44, R85, R104, R105, R117, R121, R122, R170). -/
def Obligations.ChoiceRanksCandidates : Prop :=
  (∀ (s : State) (n : SlotNo) (rest : List SlotNo) (x : Exchange) (t : Tag), s.link.op = .idle →
    s.host.linkEnable = true → s.listsFit → s.slots[n] = some x →
    (∀ f r, s.arb.abortList = n :: rest → x.st = .aborting t f r → s.choose = { s with
      slots := s.slots.set n (some { x with st := .aborting t f (some 0) })
      arb := { s.arb with abortList := rest }
      link := sendingLink (.abortVisit n s.host.retryLimit.toNat) (abortOf x.station t) }) ∧
    (s.arb.abortList = [] →
      (∃ k, s.arb.recallList = n :: rest ∧ x.st = .recalled t k) ∨
      (s.arb.recallList = [] ∧ s.arb.poolList = n :: rest ∧ s.stage.free ≠ [] ∧ x.st = .parkedPool t) →
      s.choose = { s with
        slots := s.slots.set n (some { x with st := .connected t 0 none })
        arb := { s.arb with
          recallList := if s.arb.recallList = [] then [] else rest
          poolList := if s.arb.recallList = [] then rest else s.arb.poolList }
        link := sendingLink (.exchange (openedConnection n x s.host.retryLimit.toNat true)) (resumeOf x t) })) ∧
  (∀ s : State, s.link.op = .idle → s.host.linkEnable = true → s.arb.abortList = [] → s.arb.recallList = [] →
    s.arb.poolList = [] ∨ s.stage.free = [] → s.pollCalledFor →
    ∃ w g low high, s.choose = { s with link := sendingLink (.poll w) g } ∧
      w.mask = (List.finRange 15).filter (fun a => s.stations[a].state ≠ .offline) ∧ w.left = w.mask ∧
      w.phase = .sending ∧ w.cleanup = [] ∧ g.kind = .poll ∧ g.body.address = 0 ∧ g.body.tag = 0 ∧ g.body.seq = 0 ∧
      g.body.turn = true ∧ g.body.last = false ∧ g.body.payload = [low, high] ∧ (high ++ low).getLsbD 0 = false ∧
      ∀ a : StationNo, (high ++ low).getLsbD (a.val + 1) = true ↔ s.stations[a].state ≠ .offline)

/-- An issue pick with fairness, made when there is no visit, no recall, no pool-waiter with a page free and no eligible
poll, poll-due set or not: between the first eligible slots of both levels level 1 is picked, and the counter rises,
until it stands at 4, when level 0 is picked and it returns to 0; with one level eligible that level's first is picked
and the counter returns to 0. The slot gets the lowest free tag of its station, a new connection record begins, and CALL
is sent with op, count, unit address and the parameters of a CONTROL. With no eligible slot either, the idle link stays
as it is (R16, R31, R44, R100, R104, R116, R117, R119, R120, R121, R170). -/
def Obligations.IssuePickIsFair : Prop :=
  (∀ (s : State) (n : SlotNo) (x : Exchange) (t : Tag) (counter : Nat), s.link.op = .idle →
    s.host.linkEnable = true → s.listsFit → s.onlyIssuePicks → s.slots[n] = some x → x.st = .queued →
    s.stations[x.station].tagMap[t] = none → (∀ u : Tag, u < t → s.stations[x.station].tagMap[u] ≠ none) →
    (∃ m, s.arb.level1.find? s.mayBeCalled = some n ∧ s.arb.level0.find? s.mayBeCalled = some m ∧
        s.arb.fairness < 4 ∧ counter = s.arb.fairness + 1) ∨
      (∃ m, s.arb.level1.find? s.mayBeCalled = some m ∧ s.arb.level0.find? s.mayBeCalled = some n ∧
        4 ≤ s.arb.fairness ∧ counter = 0) ∨
      (s.arb.level1.find? s.mayBeCalled = some n ∧ s.arb.level0.find? s.mayBeCalled = none ∧ counter = 0) ∨
      (s.arb.level1.find? s.mayBeCalled = none ∧ s.arb.level0.find? s.mayBeCalled = some n ∧ counter = 0) →
    s.choose = { s with
        slots := s.slots.set n (some { x with st := .connected t 0 none })
        stations := s.stations.set x.station { s.stations[x.station] with
          tagMap := s.stations[x.station].tagMap.set t (some n) }
        arb := { s.arb with
          fairness := counter, level1 := s.arb.level1.filter (· ≠ n), level0 := s.arb.level0.filter (· ≠ n) }
        link := sendingLink (.exchange (openedConnection n x s.host.retryLimit.toNat false)) (callOf x t) }) ∧
  (∀ s : State, s.link.op = .idle → s.onlyIssuePicks → s.arb.level1.find? s.mayBeCalled = none →
    s.arb.level0.find? s.mayBeCalled = none → s.choose = s)

/-! ### What every step keeps -/

/-- Every register and counter stays in range at every step: LINK_CONFIG as clamped, an even STAGE_OFFSET, the
HOST_FAULT count, the fairness counter, the poll interval timer, the station records and the repeat counts; and stage
memory stays in its canonical form (R92, R94, R99, R102, R120, R133, R139, R161, R170). -/
def Obligations.RegistersStayInRange : Prop :=
  ∀ s t : State, s.registersInRange → Memory.wf s.stage.mem → Sys2Proof.Machine.step s = .next t →
    t.registersInRange ∧ Memory.wf t.stage.mem

/-- Every slot record stays in range at every step: its count and done count, the pages and parameter bytes its op has,
its busy count, its result bytes, and a READ at a page boundary wherever it can be filled or resumed (R1, R3, R4, R6,
R10, R61, R71, R128, R129). -/
def Obligations.SlotRecordsStayInRange : Prop :=
  ∀ s t : State, s.slotsInRange → Sys2Proof.Machine.step s = .next t → t.slotsInRange

/-- Every step keeps each of the 256 pages in exactly one place: the free list, the chain of exactly one slot, or the
reservation list (R126). -/
def Obligations.PagesAreConserved : Prop :=
  ∀ s t : State, s.pagesConserved → Sys2Proof.Machine.step s = .next t → t.pagesConserved

/-- Every step keeps this: pages are reserved only for the READ that is on the link and awaits its data, and never more
than 4 (R59, R130, R131). -/
def Obligations.ReservationsBelongToTheAwaitingRead : Prop :=
  ∀ s t : State, s.reservationsFit → (∀ a : StationNo, s.stations[a].inRange) →
    Sys2Proof.Machine.step s = .next t → t.reservationsFit

/-- Every step keeps this: each source has at most one record, a slot has one exactly while its event unread mark is
set, and a station whose attention pending mark is set has one (R96, R157, R158, R164). -/
def Obligations.OneRecordPerSource : Prop :=
  ∀ s t : State, s.eventsFit → Sys2Proof.Machine.step s = .next t → t.eventsFit

/-- Every step keeps slots, lists, tags and the link in agreement: each list holds exactly the slots of its state; a slot
is CONNECTED exactly while the exchange on the link is its own; a tag is bound to a slot exactly while the slot holds
it; the frame the head sends is addressed to the station its operation serves, and only that station holds the turn;
and no operation ever stands with nothing to end its wait (R21, R22, R31, R35, R36, R43, R88, R100, R101, R108,
R112). -/
def Obligations.SlotsListsTagsAndLinkAgree : Prop :=
  ∀ s t : State, s.consistent → Sys2Proof.Machine.step s = .next t → t.consistent

/-- Every step keeps the deadline list in ascending remaining time, with every remaining time 1 to 65535, so that no
deadline is passed over and the order holds across the wrap of the timebase (R87, R88, R89, R90). The premises are
invariants too: slots, lists, tags and the link agree, and each station record is in range. -/
def Obligations.DeadlinesStandInOrder : Prop :=
  ∀ s t : State, s.deadlinesFit → s.consistent → (∀ a : StationNo, s.stations[a].inRange) →
    Sys2Proof.Machine.step s = .next t → t.deadlinesFit

/-- The data of an issued exchange is frozen: whatever the step, a slot that was neither FREE nor PREPARED before it and
is not FREE after it keeps every page of its chain in its place, every byte of those pages, and its parameter bytes
(R6, R126, R129, R135). -/
def Obligations.IssuedDataStaysFrozen : Prop :=
  ∀ (s t : State) (n : SlotNo) (x y : Exchange), s.pagesConserved → Sys2Proof.Machine.step s = .next t →
    s.slots[n] = some x → x.st ≠ .prepared → t.slots[n] = some y →
    y.params = x.params ∧ x.chain <+: y.chain ∧
    ∀ p ∈ x.chain, ∀ o : Nat, o < 64 →
      Memory.readByte t.stage.mem (64 * p.val + o) = Memory.readByte s.stage.mem (64 * p.val + o)

/-- The bytes of a frame, as section 11.1 lays them out with their check value, are judged to be that frame: no field of
a frame is lost on the line (R28, R29, R183). -/
def Obligations.FrameBytesReadBack : Prop :=
  ∀ f : Frame, f.body.payload.length ≤ 64 → judgeBytes (frameBytes f) = .frame f

/-- The state right after hardware reset has every invariant that a step keeps. -/
def Obligations.InvariantsHoldAtReset : Prop :=
  State.reset.registersInRange ∧ Memory.wf State.reset.stage.mem ∧ State.reset.slotsInRange ∧
  State.reset.pagesConserved ∧ State.reset.reservationsFit ∧ State.reset.eventsFit ∧ State.reset.consistent ∧
  State.reset.deadlinesFit
end

