-- ==== Sys2Proof/Laws/State.lean ====
section
/-!
SUPPORT. One lemma per field for each block update of the state, and for the updates of the link, so that no later
proof unfolds a record update.
-/

namespace Sys2Proof.Machine

variable (s : State)

/-! ### withHost -/

@[simp] theorem State.withHost_host (f : HostPort → HostPort) : (s.withHost f).host = f s.host := rfl
@[simp] theorem State.withHost_slots (f : HostPort → HostPort) : (s.withHost f).slots = s.slots := rfl
@[simp] theorem State.withHost_stage (f : HostPort → HostPort) : (s.withHost f).stage = s.stage := rfl
@[simp] theorem State.withHost_stations (f : HostPort → HostPort) : (s.withHost f).stations = s.stations := rfl
@[simp] theorem State.withHost_arb (f : HostPort → HostPort) : (s.withHost f).arb = s.arb := rfl
@[simp] theorem State.withHost_link (f : HostPort → HostPort) : (s.withHost f).link = s.link := rfl
@[simp] theorem State.withHost_park (f : HostPort → HostPort) : (s.withHost f).park = s.park := rfl
@[simp] theorem State.withHost_events (f : HostPort → HostPort) : (s.withHost f).events = s.events := rfl
@[simp] theorem State.withHost_freeCount (f : HostPort → HostPort) : (s.withHost f).freeCount = s.freeCount := rfl
@[simp] theorem State.withHost_pending (f : HostPort → HostPort) : (s.withHost f).pending = s.pending := rfl

/-! ### withStage -/

@[simp] theorem State.withStage_host (f : StageMem → StageMem) : (s.withStage f).host = s.host := rfl
@[simp] theorem State.withStage_slots (f : StageMem → StageMem) : (s.withStage f).slots = s.slots := rfl
@[simp] theorem State.withStage_stage (f : StageMem → StageMem) : (s.withStage f).stage = f s.stage := rfl
@[simp] theorem State.withStage_stations (f : StageMem → StageMem) : (s.withStage f).stations = s.stations := rfl
@[simp] theorem State.withStage_arb (f : StageMem → StageMem) : (s.withStage f).arb = s.arb := rfl
@[simp] theorem State.withStage_link (f : StageMem → StageMem) : (s.withStage f).link = s.link := rfl
@[simp] theorem State.withStage_park (f : StageMem → StageMem) : (s.withStage f).park = s.park := rfl
@[simp] theorem State.withStage_events (f : StageMem → StageMem) : (s.withStage f).events = s.events := rfl
@[simp] theorem State.withStage_freeCount (f : StageMem → StageMem) : (s.withStage f).freeCount = s.freeCount := rfl
@[simp] theorem State.withStage_pending (f : StageMem → StageMem) : (s.withStage f).pending = s.pending := rfl

/-! ### withArb -/

@[simp] theorem State.withArb_host (f : Arbiter → Arbiter) : (s.withArb f).host = s.host := rfl
@[simp] theorem State.withArb_slots (f : Arbiter → Arbiter) : (s.withArb f).slots = s.slots := rfl
@[simp] theorem State.withArb_stage (f : Arbiter → Arbiter) : (s.withArb f).stage = s.stage := rfl
@[simp] theorem State.withArb_stations (f : Arbiter → Arbiter) : (s.withArb f).stations = s.stations := rfl
@[simp] theorem State.withArb_arb (f : Arbiter → Arbiter) : (s.withArb f).arb = f s.arb := rfl
@[simp] theorem State.withArb_link (f : Arbiter → Arbiter) : (s.withArb f).link = s.link := rfl
@[simp] theorem State.withArb_park (f : Arbiter → Arbiter) : (s.withArb f).park = s.park := rfl
@[simp] theorem State.withArb_events (f : Arbiter → Arbiter) : (s.withArb f).events = s.events := rfl
@[simp] theorem State.withArb_freeCount (f : Arbiter → Arbiter) : (s.withArb f).freeCount = s.freeCount := rfl
@[simp] theorem State.withArb_pending (f : Arbiter → Arbiter) : (s.withArb f).pending = s.pending := rfl

/-! ### withLink -/

@[simp] theorem State.withLink_host (f : LinkEngine → LinkEngine) : (s.withLink f).host = s.host := rfl
@[simp] theorem State.withLink_slots (f : LinkEngine → LinkEngine) : (s.withLink f).slots = s.slots := rfl
@[simp] theorem State.withLink_stage (f : LinkEngine → LinkEngine) : (s.withLink f).stage = s.stage := rfl
@[simp] theorem State.withLink_stations (f : LinkEngine → LinkEngine) : (s.withLink f).stations = s.stations := rfl
@[simp] theorem State.withLink_arb (f : LinkEngine → LinkEngine) : (s.withLink f).arb = s.arb := rfl
@[simp] theorem State.withLink_link (f : LinkEngine → LinkEngine) : (s.withLink f).link = f s.link := rfl
@[simp] theorem State.withLink_park (f : LinkEngine → LinkEngine) : (s.withLink f).park = s.park := rfl
@[simp] theorem State.withLink_events (f : LinkEngine → LinkEngine) : (s.withLink f).events = s.events := rfl
@[simp] theorem State.withLink_freeCount (f : LinkEngine → LinkEngine) : (s.withLink f).freeCount = s.freeCount := rfl
@[simp] theorem State.withLink_pending (f : LinkEngine → LinkEngine) : (s.withLink f).pending = s.pending := rfl

/-! ### withPark -/

@[simp] theorem State.withPark_host (f : ParkMonitor → ParkMonitor) : (s.withPark f).host = s.host := rfl
@[simp] theorem State.withPark_slots (f : ParkMonitor → ParkMonitor) : (s.withPark f).slots = s.slots := rfl
@[simp] theorem State.withPark_stage (f : ParkMonitor → ParkMonitor) : (s.withPark f).stage = s.stage := rfl
@[simp] theorem State.withPark_stations (f : ParkMonitor → ParkMonitor) : (s.withPark f).stations = s.stations := rfl
@[simp] theorem State.withPark_arb (f : ParkMonitor → ParkMonitor) : (s.withPark f).arb = s.arb := rfl
@[simp] theorem State.withPark_link (f : ParkMonitor → ParkMonitor) : (s.withPark f).link = s.link := rfl
@[simp] theorem State.withPark_park (f : ParkMonitor → ParkMonitor) : (s.withPark f).park = f s.park := rfl
@[simp] theorem State.withPark_events (f : ParkMonitor → ParkMonitor) : (s.withPark f).events = s.events := rfl
@[simp] theorem State.withPark_freeCount (f : ParkMonitor → ParkMonitor) : (s.withPark f).freeCount = s.freeCount := rfl
@[simp] theorem State.withPark_pending (f : ParkMonitor → ParkMonitor) : (s.withPark f).pending = s.pending := rfl

/-! ### withEvents -/

@[simp] theorem State.withEvents_host (f : EventQueue → EventQueue) : (s.withEvents f).host = s.host := rfl
@[simp] theorem State.withEvents_slots (f : EventQueue → EventQueue) : (s.withEvents f).slots = s.slots := rfl
@[simp] theorem State.withEvents_stage (f : EventQueue → EventQueue) : (s.withEvents f).stage = s.stage := rfl
@[simp] theorem State.withEvents_stations (f : EventQueue → EventQueue) : (s.withEvents f).stations = s.stations := rfl
@[simp] theorem State.withEvents_arb (f : EventQueue → EventQueue) : (s.withEvents f).arb = s.arb := rfl
@[simp] theorem State.withEvents_link (f : EventQueue → EventQueue) : (s.withEvents f).link = s.link := rfl
@[simp] theorem State.withEvents_park (f : EventQueue → EventQueue) : (s.withEvents f).park = s.park := rfl
@[simp] theorem State.withEvents_events (f : EventQueue → EventQueue) : (s.withEvents f).events = f s.events := rfl
@[simp] theorem State.withEvents_freeCount (f : EventQueue → EventQueue) : (s.withEvents f).freeCount = s.freeCount := rfl
@[simp] theorem State.withEvents_pending (f : EventQueue → EventQueue) : (s.withEvents f).pending = s.pending := rfl

/-! ### withStation -/

@[simp] theorem State.withStation_host (a : StationNo) (f : Station → Station) : (s.withStation a f).host = s.host := rfl
@[simp] theorem State.withStation_slots (a : StationNo) (f : Station → Station) : (s.withStation a f).slots = s.slots := rfl
@[simp] theorem State.withStation_stage (a : StationNo) (f : Station → Station) : (s.withStation a f).stage = s.stage := rfl
@[simp] theorem State.withStation_stations (a : StationNo) (f : Station → Station) : (s.withStation a f).stations = s.stations.set a (f s.stations[a]) := rfl
@[simp] theorem State.withStation_arb (a : StationNo) (f : Station → Station) : (s.withStation a f).arb = s.arb := rfl
@[simp] theorem State.withStation_link (a : StationNo) (f : Station → Station) : (s.withStation a f).link = s.link := rfl
@[simp] theorem State.withStation_park (a : StationNo) (f : Station → Station) : (s.withStation a f).park = s.park := rfl
@[simp] theorem State.withStation_events (a : StationNo) (f : Station → Station) : (s.withStation a f).events = s.events := rfl
@[simp] theorem State.withStation_freeCount (a : StationNo) (f : Station → Station) : (s.withStation a f).freeCount = s.freeCount := rfl
@[simp] theorem State.withStation_pending (a : StationNo) (f : Station → Station) : (s.withStation a f).pending = s.pending := rfl

/-! ### setSlot -/

@[simp] theorem State.setSlot_host (n : SlotNo) (x : Option Exchange) : (s.setSlot n x).host = s.host := rfl
@[simp] theorem State.setSlot_slots (n : SlotNo) (x : Option Exchange) : (s.setSlot n x).slots = s.slots.set n x := rfl
@[simp] theorem State.setSlot_stage (n : SlotNo) (x : Option Exchange) : (s.setSlot n x).stage = s.stage := rfl
@[simp] theorem State.setSlot_stations (n : SlotNo) (x : Option Exchange) : (s.setSlot n x).stations = s.stations := rfl
@[simp] theorem State.setSlot_arb (n : SlotNo) (x : Option Exchange) : (s.setSlot n x).arb = s.arb := rfl
@[simp] theorem State.setSlot_link (n : SlotNo) (x : Option Exchange) : (s.setSlot n x).link = s.link := rfl
@[simp] theorem State.setSlot_park (n : SlotNo) (x : Option Exchange) : (s.setSlot n x).park = s.park := rfl
@[simp] theorem State.setSlot_events (n : SlotNo) (x : Option Exchange) : (s.setSlot n x).events = s.events := rfl
@[simp] theorem State.setSlot_freeCount (n : SlotNo) (x : Option Exchange) : (s.setSlot n x).freeCount = s.freeCount := rfl
@[simp] theorem State.setSlot_pending (n : SlotNo) (x : Option Exchange) : (s.setSlot n x).pending = s.pending := rfl

/-! ### useFree -/

@[simp] theorem State.useFree_host : s.useFree.host = s.host := rfl
@[simp] theorem State.useFree_slots : s.useFree.slots = s.slots := rfl
@[simp] theorem State.useFree_stage : s.useFree.stage = s.stage := rfl
@[simp] theorem State.useFree_stations : s.useFree.stations = s.stations := rfl
@[simp] theorem State.useFree_arb : s.useFree.arb = s.arb := rfl
@[simp] theorem State.useFree_link : s.useFree.link = s.link := rfl
@[simp] theorem State.useFree_park : s.useFree.park = s.park := rfl
@[simp] theorem State.useFree_events : s.useFree.events = s.events := rfl
@[simp] theorem State.useFree_freeCount : s.useFree.freeCount = s.freeCount + 1 := rfl
@[simp] theorem State.useFree_pending : s.useFree.pending = s.pending := rfl

/-! ### send -/

@[simp] theorem State.send_host (f : Frame) : (s.send f).host = s.host := rfl
@[simp] theorem State.send_slots (f : Frame) : (s.send f).slots = s.slots := rfl
@[simp] theorem State.send_stage (f : Frame) : (s.send f).stage = s.stage := rfl
@[simp] theorem State.send_stations (f : Frame) : (s.send f).stations = s.stations := rfl
@[simp] theorem State.send_arb (f : Frame) : (s.send f).arb = s.arb := rfl
@[simp] theorem State.send_link (f : Frame) :
    (s.send f).link =
      { s.link with turn := .head, replyTimer := none, sending := some f, lateOpen := false } := rfl
@[simp] theorem State.send_park (f : Frame) : (s.send f).park = s.park := rfl
@[simp] theorem State.send_events (f : Frame) : (s.send f).events = s.events := rfl
@[simp] theorem State.send_freeCount (f : Frame) : (s.send f).freeCount = s.freeCount := rfl
@[simp] theorem State.send_pending (f : Frame) : (s.send f).pending = s.pending := rfl

/-! ### passTurn -/

@[simp] theorem State.passTurn_host (a : StationNo) : (s.passTurn a).host = s.host := rfl
@[simp] theorem State.passTurn_slots (a : StationNo) : (s.passTurn a).slots = s.slots := rfl
@[simp] theorem State.passTurn_stage (a : StationNo) : (s.passTurn a).stage = s.stage := rfl
@[simp] theorem State.passTurn_stations (a : StationNo) : (s.passTurn a).stations = s.stations := rfl
@[simp] theorem State.passTurn_arb (a : StationNo) : (s.passTurn a).arb = s.arb := rfl
@[simp] theorem State.passTurn_link (a : StationNo) :
    (s.passTurn a).link =
      { s.link with turn := .station a, replyTimer := some s.host.replyTime, sending := none, lateOpen := false } := rfl
@[simp] theorem State.passTurn_park (a : StationNo) : (s.passTurn a).park = s.park := rfl
@[simp] theorem State.passTurn_events (a : StationNo) : (s.passTurn a).events = s.events := rfl
@[simp] theorem State.passTurn_freeCount (a : StationNo) : (s.passTurn a).freeCount = s.freeCount := rfl
@[simp] theorem State.passTurn_pending (a : StationNo) : (s.passTurn a).pending = s.pending := rfl

/-! ### endOp -/

@[simp] theorem State.endOp_host : s.endOp.host = s.host := rfl
@[simp] theorem State.endOp_slots : s.endOp.slots = s.slots := rfl
@[simp] theorem State.endOp_stage : s.endOp.stage = s.stage := rfl
@[simp] theorem State.endOp_stations : s.endOp.stations = s.stations := rfl
@[simp] theorem State.endOp_arb : s.endOp.arb = s.arb := rfl
@[simp] theorem State.endOp_link :
    s.endOp.link =
      { op := .idle, turn := .nobody, replyTimer := none, sending := none, lateOpen := false } := rfl
@[simp] theorem State.endOp_park : s.endOp.park = s.park := rfl
@[simp] theorem State.endOp_events : s.endOp.events = s.events := rfl
@[simp] theorem State.endOp_freeCount : s.endOp.freeCount = s.freeCount := rfl
@[simp] theorem State.endOp_pending : s.endOp.pending = s.pending := rfl

/-! ### setOp -/

@[simp] theorem State.setOp_host (op : LinkOp) : (s.setOp op).host = s.host := rfl
@[simp] theorem State.setOp_slots (op : LinkOp) : (s.setOp op).slots = s.slots := rfl
@[simp] theorem State.setOp_stage (op : LinkOp) : (s.setOp op).stage = s.stage := rfl
@[simp] theorem State.setOp_stations (op : LinkOp) : (s.setOp op).stations = s.stations := rfl
@[simp] theorem State.setOp_arb (op : LinkOp) : (s.setOp op).arb = s.arb := rfl
@[simp] theorem State.setOp_link (op : LinkOp) : (s.setOp op).link = { s.link with op := op } := rfl
@[simp] theorem State.setOp_park (op : LinkOp) : (s.setOp op).park = s.park := rfl
@[simp] theorem State.setOp_events (op : LinkOp) : (s.setOp op).events = s.events := rfl
@[simp] theorem State.setOp_freeCount (op : LinkOp) : (s.setOp op).freeCount = s.freeCount := rfl
@[simp] theorem State.setOp_pending (op : LinkOp) : (s.setOp op).pending = s.pending := rfl

/-! ### openLate -/

@[simp] theorem State.openLate_host : s.openLate.host = s.host := rfl
@[simp] theorem State.openLate_slots : s.openLate.slots = s.slots := rfl
@[simp] theorem State.openLate_stage : s.openLate.stage = s.stage := rfl
@[simp] theorem State.openLate_stations : s.openLate.stations = s.stations := rfl
@[simp] theorem State.openLate_arb : s.openLate.arb = s.arb := rfl
@[simp] theorem State.openLate_link :
    s.openLate.link = { s.link with lateOpen := s.link.sending.isSome } := rfl
@[simp] theorem State.openLate_park : s.openLate.park = s.park := rfl
@[simp] theorem State.openLate_events : s.openLate.events = s.events := rfl
@[simp] theorem State.openLate_freeCount : s.openLate.freeCount = s.freeCount := rfl
@[simp] theorem State.openLate_pending : s.openLate.pending = s.pending := rfl

/-! ### Reading one slot and one station after an update -/

@[simp] theorem State.setSlot_get (n : SlotNo) (x : Option Exchange) : (s.setSlot n x).slots[n] = x := by
  simp

theorem State.setSlot_get_other (n m : SlotNo) (x : Option Exchange) (h : n ≠ m) :
    (s.setSlot n x).slots[m] = s.slots[m] := by
  have h' : n.val ≠ m.val := fun e => h (Fin.ext e)
  simp [h']

@[simp] theorem State.withStation_get (a : StationNo) (f : Station → Station) :
    (s.withStation a f).stations[a] = f s.stations[a] := by
  simp

theorem State.withStation_get_other (a b : StationNo) (f : Station → Station) (h : a ≠ b) :
    (s.withStation a f).stations[b] = s.stations[b] := by
  have h' : a.val ≠ b.val := fun e => h (Fin.ext e)
  simp [h']

end Sys2Proof.Machine
end

