-- ==== Sys2Proof/Laws/Frames.lean ====
section
/-!
SUPPORT. What the shared operations leave alone: one lemma per operation and field it does not touch.
-/

namespace Sys2Proof.Machine

variable (s : State)

/-! ### result -/

@[simp] theorem State.result_slots (c : ResultCode) (v : Nat) : (s.result c v).slots = s.slots := rfl
@[simp] theorem State.result_stage (c : ResultCode) (v : Nat) : (s.result c v).stage = s.stage := rfl
@[simp] theorem State.result_stations (c : ResultCode) (v : Nat) : (s.result c v).stations = s.stations := rfl
@[simp] theorem State.result_arb (c : ResultCode) (v : Nat) : (s.result c v).arb = s.arb := rfl
@[simp] theorem State.result_link (c : ResultCode) (v : Nat) : (s.result c v).link = s.link := rfl
@[simp] theorem State.result_park (c : ResultCode) (v : Nat) : (s.result c v).park = s.park := rfl
@[simp] theorem State.result_events (c : ResultCode) (v : Nat) : (s.result c v).events = s.events := rfl
@[simp] theorem State.result_freeCount (c : ResultCode) (v : Nat) : (s.result c v).freeCount = s.freeCount := rfl
@[simp] theorem State.result_pending (c : ResultCode) (v : Nat) : (s.result c v).pending = s.pending := rfl

/-! ### misuse -/

@[simp] theorem State.misuse_slots (c : StageFault) : (s.misuse c).slots = s.slots := rfl
@[simp] theorem State.misuse_stage (c : StageFault) : (s.misuse c).stage = s.stage := rfl
@[simp] theorem State.misuse_stations (c : StageFault) : (s.misuse c).stations = s.stations := rfl
@[simp] theorem State.misuse_arb (c : StageFault) : (s.misuse c).arb = s.arb := rfl
@[simp] theorem State.misuse_link (c : StageFault) : (s.misuse c).link = s.link := rfl
@[simp] theorem State.misuse_park (c : StageFault) : (s.misuse c).park = s.park := rfl
@[simp] theorem State.misuse_events (c : StageFault) : (s.misuse c).events = s.events := rfl
@[simp] theorem State.misuse_freeCount (c : StageFault) : (s.misuse c).freeCount = s.freeCount := rfl
@[simp] theorem State.misuse_pending (c : StageFault) : (s.misuse c).pending = s.pending := rfl

/-! ### post -/

@[simp] theorem State.post_host (r : EventRecord) : (s.post r).host = s.host := rfl
@[simp] theorem State.post_slots (r : EventRecord) : (s.post r).slots = s.slots := rfl
@[simp] theorem State.post_stage (r : EventRecord) : (s.post r).stage = s.stage := rfl
@[simp] theorem State.post_stations (r : EventRecord) : (s.post r).stations = s.stations := rfl
@[simp] theorem State.post_arb (r : EventRecord) : (s.post r).arb = s.arb := rfl
@[simp] theorem State.post_link (r : EventRecord) : (s.post r).link = s.link := rfl
@[simp] theorem State.post_park (r : EventRecord) : (s.post r).park = s.park := rfl
@[simp] theorem State.post_freeCount (r : EventRecord) : (s.post r).freeCount = s.freeCount := rfl
@[simp] theorem State.post_pending (r : EventRecord) : (s.post r).pending = s.pending := rfl

/-! ### report -/

@[simp] theorem State.report_host (src : Source) (k : EventKind) (d : Detail) :
    (s.report src k d).host = s.host := by
  unfold State.report
  (repeat' split) <;> simp
@[simp] theorem State.report_slots (src : Source) (k : EventKind) (d : Detail) :
    (s.report src k d).slots = s.slots := by
  unfold State.report
  (repeat' split) <;> simp
@[simp] theorem State.report_stage (src : Source) (k : EventKind) (d : Detail) :
    (s.report src k d).stage = s.stage := by
  unfold State.report
  (repeat' split) <;> simp
@[simp] theorem State.report_stations (src : Source) (k : EventKind) (d : Detail) :
    (s.report src k d).stations = s.stations := by
  unfold State.report
  (repeat' split) <;> simp
@[simp] theorem State.report_arb (src : Source) (k : EventKind) (d : Detail) : (s.report src k d).arb = s.arb := by
  unfold State.report
  (repeat' split) <;> simp
@[simp] theorem State.report_link (src : Source) (k : EventKind) (d : Detail) :
    (s.report src k d).link = s.link := by
  unfold State.report
  (repeat' split) <;> simp
@[simp] theorem State.report_park (src : Source) (k : EventKind) (d : Detail) :
    (s.report src k d).park = s.park := by
  unfold State.report
  (repeat' split) <;> simp
@[simp] theorem State.report_freeCount (src : Source) (k : EventKind) (d : Detail) :
    (s.report src k d).freeCount = s.freeCount := by
  unfold State.report
  (repeat' split) <;> simp
@[simp] theorem State.report_pending (src : Source) (k : EventKind) (d : Detail) :
    (s.report src k d).pending = s.pending := by
  unfold State.report
  (repeat' split) <;> simp

/-! ### linkFault -/

@[simp] theorem State.linkFault_host (c : LinkFault) : (s.linkFault c).host = s.host := by
  simp [State.linkFault]
@[simp] theorem State.linkFault_slots (c : LinkFault) : (s.linkFault c).slots = s.slots := by
  simp [State.linkFault]
@[simp] theorem State.linkFault_stage (c : LinkFault) : (s.linkFault c).stage = s.stage := by
  simp [State.linkFault]
@[simp] theorem State.linkFault_stations (c : LinkFault) : (s.linkFault c).stations = s.stations := by
  simp [State.linkFault]
@[simp] theorem State.linkFault_arb (c : LinkFault) : (s.linkFault c).arb = s.arb := by
  simp [State.linkFault]
@[simp] theorem State.linkFault_link (c : LinkFault) : (s.linkFault c).link = s.link := by
  simp [State.linkFault]
@[simp] theorem State.linkFault_park (c : LinkFault) : (s.linkFault c).park = s.park := by
  simp [State.linkFault]
@[simp] theorem State.linkFault_freeCount (c : LinkFault) : (s.linkFault c).freeCount = s.freeCount := by
  simp [State.linkFault]
@[simp] theorem State.linkFault_pending (c : LinkFault) : (s.linkFault c).pending = s.pending := by
  simp [State.linkFault]

/-! ### badFrame -/

@[simp] theorem State.badFrame_host (c : LinkFault) : (s.badFrame c).host = s.host := by
  simp [State.badFrame]
@[simp] theorem State.badFrame_slots (c : LinkFault) : (s.badFrame c).slots = s.slots := by
  simp [State.badFrame]
@[simp] theorem State.badFrame_stage (c : LinkFault) : (s.badFrame c).stage = s.stage := by
  simp [State.badFrame]
@[simp] theorem State.badFrame_stations (c : LinkFault) : (s.badFrame c).stations = s.stations := by
  simp [State.badFrame]
@[simp] theorem State.badFrame_arb (c : LinkFault) : (s.badFrame c).arb = s.arb := by
  simp [State.badFrame]
@[simp] theorem State.badFrame_park (c : LinkFault) : (s.badFrame c).park = s.park := by
  simp [State.badFrame]
@[simp] theorem State.badFrame_freeCount (c : LinkFault) : (s.badFrame c).freeCount = s.freeCount := by
  simp [State.badFrame]
@[simp] theorem State.badFrame_pending (c : LinkFault) : (s.badFrame c).pending = s.pending := by
  simp [State.badFrame]
@[simp] theorem State.badFrame_link (c : LinkFault) : (s.badFrame c).link = { s.link with lateOpen := false } := by
  simp [State.badFrame]

/-! ### attention -/

@[simp] theorem State.attention_host (a : StationNo) (c : Byte) : (s.attention a c).host = s.host := by
  simp [State.attention]
@[simp] theorem State.attention_slots (a : StationNo) (c : Byte) : (s.attention a c).slots = s.slots := by
  simp [State.attention]
@[simp] theorem State.attention_stage (a : StationNo) (c : Byte) : (s.attention a c).stage = s.stage := by
  simp [State.attention]
@[simp] theorem State.attention_arb (a : StationNo) (c : Byte) : (s.attention a c).arb = s.arb := by
  simp [State.attention]
@[simp] theorem State.attention_link (a : StationNo) (c : Byte) : (s.attention a c).link = s.link := by
  simp [State.attention]
@[simp] theorem State.attention_park (a : StationNo) (c : Byte) : (s.attention a c).park = s.park := by
  simp [State.attention]
@[simp] theorem State.attention_freeCount (a : StationNo) (c : Byte) :
    (s.attention a c).freeCount = s.freeCount := by
  simp [State.attention]
@[simp] theorem State.attention_pending (a : StationNo) (c : Byte) : (s.attention a c).pending = s.pending := by
  simp [State.attention]

/-! ### stationSeen -/

@[simp] theorem State.stationSeen_host (a : StationNo) : (s.stationSeen a).host = s.host := by
  unfold State.stationSeen
  (repeat' split) <;> simp
@[simp] theorem State.stationSeen_slots (a : StationNo) : (s.stationSeen a).slots = s.slots := by
  unfold State.stationSeen
  (repeat' split) <;> simp
@[simp] theorem State.stationSeen_stage (a : StationNo) : (s.stationSeen a).stage = s.stage := by
  unfold State.stationSeen
  (repeat' split) <;> simp
@[simp] theorem State.stationSeen_arb (a : StationNo) : (s.stationSeen a).arb = s.arb := by
  unfold State.stationSeen
  (repeat' split) <;> simp
@[simp] theorem State.stationSeen_link (a : StationNo) : (s.stationSeen a).link = s.link := by
  unfold State.stationSeen
  (repeat' split) <;> simp
@[simp] theorem State.stationSeen_park (a : StationNo) : (s.stationSeen a).park = s.park := by
  unfold State.stationSeen
  (repeat' split) <;> simp
@[simp] theorem State.stationSeen_freeCount (a : StationNo) : (s.stationSeen a).freeCount = s.freeCount := by
  unfold State.stationSeen
  (repeat' split) <;> simp
@[simp] theorem State.stationSeen_pending (a : StationNo) : (s.stationSeen a).pending = s.pending := by
  unfold State.stationSeen
  (repeat' split) <;> simp

/-! ### miss -/

@[simp] theorem State.miss_host (a : StationNo) : (s.miss a).host = s.host := by
  unfold State.miss
  (repeat' split) <;> simp
@[simp] theorem State.miss_slots (a : StationNo) : (s.miss a).slots = s.slots := by
  unfold State.miss
  (repeat' split) <;> simp
@[simp] theorem State.miss_stage (a : StationNo) : (s.miss a).stage = s.stage := by
  unfold State.miss
  (repeat' split) <;> simp
@[simp] theorem State.miss_arb (a : StationNo) : (s.miss a).arb = s.arb := by
  unfold State.miss
  (repeat' split) <;> simp
@[simp] theorem State.miss_link (a : StationNo) : (s.miss a).link = s.link := by
  unfold State.miss
  (repeat' split) <;> simp
@[simp] theorem State.miss_park (a : StationNo) : (s.miss a).park = s.park := by
  unfold State.miss
  (repeat' split) <;> simp
@[simp] theorem State.miss_freeCount (a : StationNo) : (s.miss a).freeCount = s.freeCount := by
  unfold State.miss
  (repeat' split) <;> simp
@[simp] theorem State.miss_pending (a : StationNo) : (s.miss a).pending = s.pending := by
  unfold State.miss
  (repeat' split) <;> simp

/-! ### setTag -/

@[simp] theorem State.setTag_host (a : StationNo) (t : Tag) (e : Option SlotNo) :
    (s.setTag a t e).host = s.host := rfl
@[simp] theorem State.setTag_slots (a : StationNo) (t : Tag) (e : Option SlotNo) :
    (s.setTag a t e).slots = s.slots := rfl
@[simp] theorem State.setTag_stage (a : StationNo) (t : Tag) (e : Option SlotNo) :
    (s.setTag a t e).stage = s.stage := rfl
@[simp] theorem State.setTag_arb (a : StationNo) (t : Tag) (e : Option SlotNo) : (s.setTag a t e).arb = s.arb := rfl
@[simp] theorem State.setTag_link (a : StationNo) (t : Tag) (e : Option SlotNo) :
    (s.setTag a t e).link = s.link := rfl
@[simp] theorem State.setTag_park (a : StationNo) (t : Tag) (e : Option SlotNo) :
    (s.setTag a t e).park = s.park := rfl
@[simp] theorem State.setTag_events (a : StationNo) (t : Tag) (e : Option SlotNo) :
    (s.setTag a t e).events = s.events := rfl
@[simp] theorem State.setTag_freeCount (a : StationNo) (t : Tag) (e : Option SlotNo) :
    (s.setTag a t e).freeCount = s.freeCount := rfl
@[simp] theorem State.setTag_pending (a : StationNo) (t : Tag) (e : Option SlotNo) :
    (s.setTag a t e).pending = s.pending := rfl

/-! ### freeTagOf -/

@[simp] theorem State.freeTagOf_host (x : Exchange) : (s.freeTagOf x).host = s.host := by
  unfold State.freeTagOf
  (repeat' split) <;> simp
@[simp] theorem State.freeTagOf_slots (x : Exchange) : (s.freeTagOf x).slots = s.slots := by
  unfold State.freeTagOf
  (repeat' split) <;> simp
@[simp] theorem State.freeTagOf_stage (x : Exchange) : (s.freeTagOf x).stage = s.stage := by
  unfold State.freeTagOf
  (repeat' split) <;> simp
@[simp] theorem State.freeTagOf_arb (x : Exchange) : (s.freeTagOf x).arb = s.arb := by
  unfold State.freeTagOf
  (repeat' split) <;> simp
@[simp] theorem State.freeTagOf_link (x : Exchange) : (s.freeTagOf x).link = s.link := by
  unfold State.freeTagOf
  (repeat' split) <;> simp
@[simp] theorem State.freeTagOf_park (x : Exchange) : (s.freeTagOf x).park = s.park := by
  unfold State.freeTagOf
  (repeat' split) <;> simp
@[simp] theorem State.freeTagOf_events (x : Exchange) : (s.freeTagOf x).events = s.events := by
  unfold State.freeTagOf
  (repeat' split) <;> simp
@[simp] theorem State.freeTagOf_freeCount (x : Exchange) : (s.freeTagOf x).freeCount = s.freeCount := by
  unfold State.freeTagOf
  (repeat' split) <;> simp
@[simp] theorem State.freeTagOf_pending (x : Exchange) : (s.freeTagOf x).pending = s.pending := by
  unfold State.freeTagOf
  (repeat' split) <;> simp

/-! ### giveUpReserved -/

@[simp] theorem State.giveUpReserved_host : s.giveUpReserved.host = s.host := rfl
@[simp] theorem State.giveUpReserved_slots : s.giveUpReserved.slots = s.slots := rfl
@[simp] theorem State.giveUpReserved_stations : s.giveUpReserved.stations = s.stations := rfl
@[simp] theorem State.giveUpReserved_arb : s.giveUpReserved.arb = s.arb := rfl
@[simp] theorem State.giveUpReserved_link : s.giveUpReserved.link = s.link := rfl
@[simp] theorem State.giveUpReserved_park : s.giveUpReserved.park = s.park := rfl
@[simp] theorem State.giveUpReserved_events : s.giveUpReserved.events = s.events := rfl
@[simp] theorem State.giveUpReserved_freeCount : s.giveUpReserved.freeCount = s.freeCount := rfl
@[simp] theorem State.giveUpReserved_pending : s.giveUpReserved.pending = s.pending := rfl

/-! ### leaveLists -/

@[simp] theorem State.leaveLists_host (n : SlotNo) : (s.leaveLists n).host = s.host := rfl
@[simp] theorem State.leaveLists_slots (n : SlotNo) : (s.leaveLists n).slots = s.slots := rfl
@[simp] theorem State.leaveLists_stage (n : SlotNo) : (s.leaveLists n).stage = s.stage := rfl
@[simp] theorem State.leaveLists_stations (n : SlotNo) : (s.leaveLists n).stations = s.stations := rfl
@[simp] theorem State.leaveLists_link (n : SlotNo) : (s.leaveLists n).link = s.link := rfl
@[simp] theorem State.leaveLists_events (n : SlotNo) : (s.leaveLists n).events = s.events := rfl
@[simp] theorem State.leaveLists_freeCount (n : SlotNo) : (s.leaveLists n).freeCount = s.freeCount := rfl
@[simp] theorem State.leaveLists_pending (n : SlotNo) : (s.leaveLists n).pending = s.pending := rfl

/-! ### joinIssue -/

@[simp] theorem State.joinIssue_host (n : SlotNo) (u : Bool) : (s.joinIssue n u).host = s.host := rfl
@[simp] theorem State.joinIssue_slots (n : SlotNo) (u : Bool) : (s.joinIssue n u).slots = s.slots := rfl
@[simp] theorem State.joinIssue_stage (n : SlotNo) (u : Bool) : (s.joinIssue n u).stage = s.stage := rfl
@[simp] theorem State.joinIssue_stations (n : SlotNo) (u : Bool) : (s.joinIssue n u).stations = s.stations := rfl
@[simp] theorem State.joinIssue_link (n : SlotNo) (u : Bool) : (s.joinIssue n u).link = s.link := rfl
@[simp] theorem State.joinIssue_park (n : SlotNo) (u : Bool) : (s.joinIssue n u).park = s.park := rfl
@[simp] theorem State.joinIssue_events (n : SlotNo) (u : Bool) : (s.joinIssue n u).events = s.events := rfl
@[simp] theorem State.joinIssue_freeCount (n : SlotNo) (u : Bool) : (s.joinIssue n u).freeCount = s.freeCount := rfl
@[simp] theorem State.joinIssue_pending (n : SlotNo) (u : Bool) : (s.joinIssue n u).pending = s.pending := rfl

/-! ### joinAbort -/

@[simp] theorem State.joinAbort_host (n : SlotNo) : (s.joinAbort n).host = s.host := rfl
@[simp] theorem State.joinAbort_slots (n : SlotNo) : (s.joinAbort n).slots = s.slots := rfl
@[simp] theorem State.joinAbort_stage (n : SlotNo) : (s.joinAbort n).stage = s.stage := rfl
@[simp] theorem State.joinAbort_stations (n : SlotNo) : (s.joinAbort n).stations = s.stations := rfl
@[simp] theorem State.joinAbort_link (n : SlotNo) : (s.joinAbort n).link = s.link := rfl
@[simp] theorem State.joinAbort_park (n : SlotNo) : (s.joinAbort n).park = s.park := rfl
@[simp] theorem State.joinAbort_events (n : SlotNo) : (s.joinAbort n).events = s.events := rfl
@[simp] theorem State.joinAbort_freeCount (n : SlotNo) : (s.joinAbort n).freeCount = s.freeCount := rfl
@[simp] theorem State.joinAbort_pending (n : SlotNo) : (s.joinAbort n).pending = s.pending := rfl

/-! ### joinPool -/

@[simp] theorem State.joinPool_host (n : SlotNo) : (s.joinPool n).host = s.host := rfl
@[simp] theorem State.joinPool_slots (n : SlotNo) : (s.joinPool n).slots = s.slots := rfl
@[simp] theorem State.joinPool_stage (n : SlotNo) : (s.joinPool n).stage = s.stage := rfl
@[simp] theorem State.joinPool_stations (n : SlotNo) : (s.joinPool n).stations = s.stations := rfl
@[simp] theorem State.joinPool_link (n : SlotNo) : (s.joinPool n).link = s.link := rfl
@[simp] theorem State.joinPool_park (n : SlotNo) : (s.joinPool n).park = s.park := rfl
@[simp] theorem State.joinPool_events (n : SlotNo) : (s.joinPool n).events = s.events := rfl
@[simp] theorem State.joinPool_freeCount (n : SlotNo) : (s.joinPool n).freeCount = s.freeCount := rfl
@[simp] theorem State.joinPool_pending (n : SlotNo) : (s.joinPool n).pending = s.pending := rfl

/-! ### joinRecall -/

@[simp] theorem State.joinRecall_host (n : SlotNo) : (s.joinRecall n).host = s.host := rfl
@[simp] theorem State.joinRecall_slots (n : SlotNo) : (s.joinRecall n).slots = s.slots := rfl
@[simp] theorem State.joinRecall_stage (n : SlotNo) : (s.joinRecall n).stage = s.stage := rfl
@[simp] theorem State.joinRecall_stations (n : SlotNo) : (s.joinRecall n).stations = s.stations := rfl
@[simp] theorem State.joinRecall_link (n : SlotNo) : (s.joinRecall n).link = s.link := rfl
@[simp] theorem State.joinRecall_park (n : SlotNo) : (s.joinRecall n).park = s.park := rfl
@[simp] theorem State.joinRecall_events (n : SlotNo) : (s.joinRecall n).events = s.events := rfl
@[simp] theorem State.joinRecall_freeCount (n : SlotNo) : (s.joinRecall n).freeCount = s.freeCount := rfl
@[simp] theorem State.joinRecall_pending (n : SlotNo) : (s.joinRecall n).pending = s.pending := rfl

/-! ### arm -/

@[simp] theorem State.arm_host (n : SlotNo) (own : Nat) : (s.arm n own).host = s.host := rfl
@[simp] theorem State.arm_slots (n : SlotNo) (own : Nat) : (s.arm n own).slots = s.slots := rfl
@[simp] theorem State.arm_stage (n : SlotNo) (own : Nat) : (s.arm n own).stage = s.stage := rfl
@[simp] theorem State.arm_stations (n : SlotNo) (own : Nat) : (s.arm n own).stations = s.stations := rfl
@[simp] theorem State.arm_arb (n : SlotNo) (own : Nat) : (s.arm n own).arb = s.arb := rfl
@[simp] theorem State.arm_link (n : SlotNo) (own : Nat) : (s.arm n own).link = s.link := rfl
@[simp] theorem State.arm_events (n : SlotNo) (own : Nat) : (s.arm n own).events = s.events := rfl
@[simp] theorem State.arm_freeCount (n : SlotNo) (own : Nat) : (s.arm n own).freeCount = s.freeCount := rfl
@[simp] theorem State.arm_pending (n : SlotNo) (own : Nat) : (s.arm n own).pending = s.pending := rfl

/-! ### enterDone -/

@[simp] theorem State.enterDone_host (n : SlotNo) (f : FinalStatus) (st : Option Byte) (res : List Byte) :
    (s.enterDone n f st res).host = s.host := by
  unfold State.enterDone
  (repeat' split) <;> simp
@[simp] theorem State.enterDone_freeCount (n : SlotNo) (f : FinalStatus) (st : Option Byte) (res : List Byte) :
    (s.enterDone n f st res).freeCount = s.freeCount := by
  unfold State.enterDone
  (repeat' split) <;> simp
@[simp] theorem State.enterDone_pending (n : SlotNo) (f : FinalStatus) (st : Option Byte) (res : List Byte) :
    (s.enterDone n f st res).pending = s.pending := by
  unfold State.enterDone
  (repeat' split) <;> simp

/-! ### condemn -/

@[simp] theorem State.condemn_host (n : SlotNo) (x : Exchange) (t : Tag) (f : Fatal) :
    (s.condemn n x t f).host = s.host := rfl
@[simp] theorem State.condemn_stage (n : SlotNo) (x : Exchange) (t : Tag) (f : Fatal) :
    (s.condemn n x t f).stage = s.stage := rfl
@[simp] theorem State.condemn_stations (n : SlotNo) (x : Exchange) (t : Tag) (f : Fatal) :
    (s.condemn n x t f).stations = s.stations := rfl
@[simp] theorem State.condemn_link (n : SlotNo) (x : Exchange) (t : Tag) (f : Fatal) :
    (s.condemn n x t f).link = s.link := rfl
@[simp] theorem State.condemn_events (n : SlotNo) (x : Exchange) (t : Tag) (f : Fatal) :
    (s.condemn n x t f).events = s.events := rfl
@[simp] theorem State.condemn_freeCount (n : SlotNo) (x : Exchange) (t : Tag) (f : Fatal) :
    (s.condemn n x t f).freeCount = s.freeCount := rfl
@[simp] theorem State.condemn_pending (n : SlotNo) (x : Exchange) (t : Tag) (f : Fatal) :
    (s.condemn n x t f).pending = s.pending := rfl

/-! ### connect -/

@[simp] theorem State.connect_host (n : SlotNo) (x : Exchange) (t : Tag) (r : Bool) :
    (s.connect n x t r).host = s.host := rfl
@[simp] theorem State.connect_stage (n : SlotNo) (x : Exchange) (t : Tag) (r : Bool) :
    (s.connect n x t r).stage = s.stage := rfl
@[simp] theorem State.connect_stations (n : SlotNo) (x : Exchange) (t : Tag) (r : Bool) :
    (s.connect n x t r).stations = s.stations := rfl
@[simp] theorem State.connect_events (n : SlotNo) (x : Exchange) (t : Tag) (r : Bool) :
    (s.connect n x t r).events = s.events := rfl
@[simp] theorem State.connect_freeCount (n : SlotNo) (x : Exchange) (t : Tag) (r : Bool) :
    (s.connect n x t r).freeCount = s.freeCount := rfl
@[simp] theorem State.connect_pending (n : SlotNo) (x : Exchange) (t : Tag) (r : Bool) :
    (s.connect n x t r).pending = s.pending := rfl

/-! ### grantVisit -/

@[simp] theorem State.grantVisit_host (n : SlotNo) : (s.grantVisit n).host = s.host := by
  unfold State.grantVisit
  (repeat' split) <;> simp
@[simp] theorem State.grantVisit_stage (n : SlotNo) : (s.grantVisit n).stage = s.stage := by
  unfold State.grantVisit
  (repeat' split) <;> simp
@[simp] theorem State.grantVisit_stations (n : SlotNo) : (s.grantVisit n).stations = s.stations := by
  unfold State.grantVisit
  (repeat' split) <;> simp
@[simp] theorem State.grantVisit_events (n : SlotNo) : (s.grantVisit n).events = s.events := by
  unfold State.grantVisit
  (repeat' split) <;> simp
@[simp] theorem State.grantVisit_freeCount (n : SlotNo) : (s.grantVisit n).freeCount = s.freeCount := by
  unfold State.grantVisit
  (repeat' split) <;> simp
@[simp] theorem State.grantVisit_pending (n : SlotNo) : (s.grantVisit n).pending = s.pending := by
  unfold State.grantVisit
  (repeat' split) <;> simp

/-! ### grantResume -/

@[simp] theorem State.grantResume_host (n : SlotNo) : (s.grantResume n).host = s.host := by
  unfold State.grantResume
  (repeat' split) <;> simp
@[simp] theorem State.grantResume_stage (n : SlotNo) : (s.grantResume n).stage = s.stage := by
  unfold State.grantResume
  (repeat' split) <;> simp
@[simp] theorem State.grantResume_stations (n : SlotNo) : (s.grantResume n).stations = s.stations := by
  unfold State.grantResume
  (repeat' split) <;> simp
@[simp] theorem State.grantResume_events (n : SlotNo) : (s.grantResume n).events = s.events := by
  unfold State.grantResume
  (repeat' split) <;> simp
@[simp] theorem State.grantResume_freeCount (n : SlotNo) : (s.grantResume n).freeCount = s.freeCount := by
  unfold State.grantResume
  (repeat' split) <;> simp
@[simp] theorem State.grantResume_pending (n : SlotNo) : (s.grantResume n).pending = s.pending := by
  unfold State.grantResume
  (repeat' split) <;> simp

/-! ### grantPoll -/

@[simp] theorem State.grantPoll_host : s.grantPoll.host = s.host := rfl
@[simp] theorem State.grantPoll_slots : s.grantPoll.slots = s.slots := rfl
@[simp] theorem State.grantPoll_stage : s.grantPoll.stage = s.stage := rfl
@[simp] theorem State.grantPoll_stations : s.grantPoll.stations = s.stations := rfl
@[simp] theorem State.grantPoll_arb : s.grantPoll.arb = s.arb := rfl
@[simp] theorem State.grantPoll_park : s.grantPoll.park = s.park := rfl
@[simp] theorem State.grantPoll_events : s.grantPoll.events = s.events := rfl
@[simp] theorem State.grantPoll_freeCount : s.grantPoll.freeCount = s.freeCount := rfl
@[simp] theorem State.grantPoll_pending : s.grantPoll.pending = s.pending := rfl

/-! ### grantCall -/

@[simp] theorem State.grantCall_host (n : SlotNo) (q : Nat) : (s.grantCall n q).host = s.host := by
  unfold State.grantCall
  (repeat' split) <;> simp
@[simp] theorem State.grantCall_stage (n : SlotNo) (q : Nat) : (s.grantCall n q).stage = s.stage := by
  unfold State.grantCall
  (repeat' split) <;> simp
@[simp] theorem State.grantCall_events (n : SlotNo) (q : Nat) : (s.grantCall n q).events = s.events := by
  unfold State.grantCall
  (repeat' split) <;> simp
@[simp] theorem State.grantCall_freeCount (n : SlotNo) (q : Nat) : (s.grantCall n q).freeCount = s.freeCount := by
  unfold State.grantCall
  (repeat' split) <;> simp
@[simp] theorem State.grantCall_pending (n : SlotNo) (q : Nat) : (s.grantCall n q).pending = s.pending := by
  unfold State.grantCall
  (repeat' split) <;> simp

/-! ### grantFirst -/

@[simp] theorem State.grantFirst_host : s.grantFirst.host = s.host := by
  unfold State.grantFirst
  (repeat' split) <;> simp
@[simp] theorem State.grantFirst_stage : s.grantFirst.stage = s.stage := by
  unfold State.grantFirst
  (repeat' split) <;> simp
@[simp] theorem State.grantFirst_events : s.grantFirst.events = s.events := by
  unfold State.grantFirst
  (repeat' split) <;> simp
@[simp] theorem State.grantFirst_freeCount : s.grantFirst.freeCount = s.freeCount := by
  unfold State.grantFirst
  (repeat' split) <;> simp
@[simp] theorem State.grantFirst_pending : s.grantFirst.pending = s.pending := by
  unfold State.grantFirst
  (repeat' split) <;> simp

/-! ### choose -/

@[simp] theorem State.choose_host : s.choose.host = s.host := by
  unfold State.choose
  (repeat' split) <;> simp
@[simp] theorem State.choose_stage : s.choose.stage = s.stage := by
  unfold State.choose
  (repeat' split) <;> simp
@[simp] theorem State.choose_events : s.choose.events = s.events := by
  unfold State.choose
  (repeat' split) <;> simp
@[simp] theorem State.choose_freeCount : s.choose.freeCount = s.freeCount := by
  unfold State.choose
  (repeat' split) <;> simp
@[simp] theorem State.choose_pending : s.choose.pending = s.pending := by
  unfold State.choose
  (repeat' split) <;> simp

/-! ### carry -/

@[simp] theorem State.carry_host (k : Carried) : (s.carry k).host = s.host := rfl
@[simp] theorem State.carry_stage (k : Carried) : (s.carry k).stage = s.stage := rfl
@[simp] theorem State.carry_stations (k : Carried) : (s.carry k).stations = s.stations := rfl
@[simp] theorem State.carry_arb (k : Carried) : (s.carry k).arb = s.arb := rfl
@[simp] theorem State.carry_park (k : Carried) : (s.carry k).park = s.park := rfl
@[simp] theorem State.carry_events (k : Carried) : (s.carry k).events = s.events := rfl
@[simp] theorem State.carry_freeCount (k : Carried) : (s.carry k).freeCount = s.freeCount := rfl
@[simp] theorem State.carry_pending (k : Carried) : (s.carry k).pending = s.pending := rfl

/-! ### finish -/

@[simp] theorem State.finish_host (n : SlotNo) (f : FinalStatus) (st : Option Byte) (res : List Byte) :
    (s.finish n f st res).host = s.host := by
  simp [State.finish]
@[simp] theorem State.finish_freeCount (n : SlotNo) (f : FinalStatus) (st : Option Byte) (res : List Byte) :
    (s.finish n f st res).freeCount = s.freeCount := by
  simp [State.finish]
@[simp] theorem State.finish_pending (n : SlotNo) (f : FinalStatus) (st : Option Byte) (res : List Byte) :
    (s.finish n f st res).pending = s.pending := by
  simp [State.finish]

/-! ### finishMissed -/

@[simp] theorem State.finishMissed_host (n : SlotNo) (f : FinalStatus) (a : StationNo) :
    (s.finishMissed n f a).host = s.host := by
  simp [State.finishMissed]
@[simp] theorem State.finishMissed_freeCount (n : SlotNo) (f : FinalStatus) (a : StationNo) :
    (s.finishMissed n f a).freeCount = s.freeCount := by
  simp [State.finishMissed]
@[simp] theorem State.finishMissed_pending (n : SlotNo) (f : FinalStatus) (a : StationNo) :
    (s.finishMissed n f a).pending = s.pending := by
  simp [State.finishMissed]

end Sys2Proof.Machine
end

