-- ==== Sys2Proof/Laws/Memory.lean ====
section
/-!
SUPPORT. Stage memory: a read after a write, and that every operation keeps the canonical form.
-/

namespace Sys2Proof.Machine

/-- Every address of a list lies above a bound. -/
def Memory.above (m : Memory) (k : Nat) : Prop := ∀ c ∈ m, k < c.1

theorem Memory.readByte_above (m : Memory) (k : Nat) (h : Memory.above m k) : Memory.readByte m k = memDefault := by
  induction m with
  | nil => rfl
  | cons c m ih =>
    have hc : k < c.1 := h c (by simp)
    have hn : c.1 ≠ k := by omega
    simp only [Memory.readByte, hn, if_false]
    exact ih fun d hd => h d (by simp [hd])

/-- A byte reads back as written. -/
theorem Memory.readByte_writeByte_same (m : Memory) (k : Nat) (v : Byte) (h : Memory.wf m) :
    Memory.readByte (Memory.writeByte m k v) k = v := by
  induction m with
  | nil => by_cases hv : v = memDefault <;> simp [Memory.writeByte, Memory.readByte, hv]
  | cons c m ih =>
    obtain ⟨a, b⟩ := c
    have hs := h.1
    rw [List.pairwise_cons] at hs
    have hab : Memory.above m a := fun d hd => hs.1 d hd
    have hm : Memory.wf m := ⟨hs.2, fun d hd => h.2 d (by simp [hd])⟩
    unfold Memory.writeByte
    split
    · rename_i hk
      split
      · rename_i hv
        have : Memory.above ((a, b) :: m) k := by
          intro d hd
          rcases List.mem_cons.mp hd with rfl | hd
          · exact hk
          · have := hab d hd; omega
        rw [Memory.readByte_above _ _ this, hv]
      · simp [Memory.readByte]
    · split
      · rename_i hk hka
        split
        · rename_i hv
          subst hka
          rw [Memory.readByte_above _ _ hab, hv]
        · simp [Memory.readByte]
      · rename_i hk hka
        have hak : a ≠ k := fun e => hka e.symm
        simp only [Memory.readByte, hak, if_false]
        exact ih hm

/-- Every other byte reads as before. -/
theorem Memory.readByte_writeByte_other (m : Memory) (k j : Nat) (v : Byte) (h : k ≠ j) :
    Memory.readByte (Memory.writeByte m k v) j = Memory.readByte m j := by
  induction m with
  | nil => by_cases hv : v = memDefault <;> simp [Memory.writeByte, Memory.readByte, hv, h]
  | cons c m ih =>
    obtain ⟨a, b⟩ := c
    unfold Memory.writeByte
    split
    · split <;> simp [Memory.readByte, h]
    · split
      · rename_i hk hka
        subst hka
        split <;> simp [Memory.readByte, h]
      · simp only [Memory.readByte]
        split
        · rfl
        · exact ih

theorem Memory.writeByte_addresses (m : Memory) (k : Nat) (v : Byte) :
    ∀ c ∈ Memory.writeByte m k v, c ∈ m ∨ (c = (k, v) ∧ v ≠ memDefault) := by
  induction m with
  | nil =>
    intro c hc
    by_cases hv : v = memDefault
    · simp [Memory.writeByte, hv] at hc
    · simp [Memory.writeByte, hv] at hc
      exact .inr ⟨hc, hv⟩
  | cons d m ih =>
    obtain ⟨a, b⟩ := d
    intro c hc
    unfold Memory.writeByte at hc
    split at hc
    · split at hc
      · exact .inl hc
      · rename_i hv
        rcases List.mem_cons.mp hc with rfl | hc
        · exact .inr ⟨rfl, hv⟩
        · exact .inl hc
    · split at hc
      · split at hc
        · exact .inl (by simp [hc])
        · rename_i hv
          rcases List.mem_cons.mp hc with rfl | hc
          · exact .inr ⟨rfl, hv⟩
          · exact .inl (by simp [hc])
      · rcases List.mem_cons.mp hc with rfl | hc
        · exact .inl (by simp)
        · rcases ih c hc with h | h
          · exact .inl (by simp [h])
          · exact .inr h

/-- Storing a byte of a page keeps the canonical form. -/
theorem Memory.writeByte_wf (m : Memory) (k : Nat) (v : Byte) (h : Memory.wf m) (hk : k < 16384) :
    Memory.wf (Memory.writeByte m k v) := by
  refine ⟨?_, ?_⟩
  · have hs := h.1
    clear h
    induction m with
    | nil => by_cases hv : v = memDefault <;> simp [Memory.writeByte, hv]
    | cons d m ih =>
      obtain ⟨a, b⟩ := d
      have hs' := List.pairwise_cons.mp hs
      unfold Memory.writeByte
      split
      · rename_i hka
        split
        · exact hs
        · refine List.pairwise_cons.mpr ⟨?_, hs⟩
          intro c hc
          rcases List.mem_cons.mp hc with rfl | hc
          · exact hka
          · have := hs'.1 c hc
            simp only at this ⊢
            omega
      · split
        · rename_i hka
          subst hka
          split
          · exact hs'.2
          · exact List.pairwise_cons.mpr ⟨hs'.1, hs'.2⟩
        · rename_i h1 h2
          refine List.pairwise_cons.mpr ⟨?_, ih hs'.2⟩
          intro c hc
          rcases Memory.writeByte_addresses m k v c hc with h | h
          · exact hs'.1 c h
          · rw [h.1]
            simp only
            omega
  · intro c hc
    rcases Memory.writeByte_addresses m k v c hc with h' | h'
    · exact h.2 c h'
    · rw [h'.1]
      exact ⟨h'.2, hk⟩

theorem Memory.writeBytes_wf (m : Memory) (k : Nat) (vs : List Byte) (h : Memory.wf m)
    (hk : k + vs.length ≤ 16384) : Memory.wf (Memory.writeBytes m k vs) := by
  induction vs generalizing m k with
  | nil => exact h
  | cons v vs ih =>
    simp only [List.length_cons] at hk
    exact ih _ _ (Memory.writeByte_wf m k v h (by omega)) (by omega)

/-- A byte outside the bytes stored reads as before. -/
theorem Memory.readByte_writeBytes_other (m : Memory) (k j : Nat) (vs : List Byte)
    (h : j < k ∨ k + vs.length ≤ j) : Memory.readByte (Memory.writeBytes m k vs) j = Memory.readByte m j := by
  induction vs generalizing m k with
  | nil => rfl
  | cons v vs ih =>
    simp only [List.length_cons] at h
    rw [Memory.writeBytes, ih _ _ (by omega), Memory.readByte_writeByte_other _ _ _ _ (by omega)]

/-- The bytes stored read back as written. -/
theorem Memory.readByte_writeBytes_in (m : Memory) (k i : Nat) (vs : List Byte) (hm : Memory.wf m)
    (hk : k + vs.length ≤ 16384) (hi : i < vs.length) :
    Memory.readByte (Memory.writeBytes m k vs) (k + i) = vs[i] := by
  induction vs generalizing m k i with
  | nil => simp at hi
  | cons v vs ih =>
    simp only [List.length_cons] at hk hi
    have hw := Memory.writeByte_wf m k v hm (by omega)
    cases i with
    | zero =>
      rw [Memory.writeBytes, Memory.readByte_writeBytes_other _ _ _ _ (by omega)]
      simpa using Memory.readByte_writeByte_same m k v hm
    | succ i =>
      rw [Memory.writeBytes]
      have := ih (Memory.writeByte m k v) (k + 1) i hw (by omega) (by omega)
      rw [show k + 1 + i = k + (i + 1) by omega] at this
      simpa using this

/-- Every byte of every page has an address of stage memory. -/
theorem pageAddress_lt (p : Page) (o : Nat) (h : o < 64) : pageAddress p o < 16384 := by
  have := p.isLt
  unfold pageAddress
  omega

/-- The byte of a page names the page and the offset. -/
theorem pageAddress_inj (p q : Page) (o i : Nat) (ho : o < 64) (hi : i < 64)
    (h : pageAddress p o = pageAddress q i) : p = q ∧ o = i := by
  unfold pageAddress at h
  refine ⟨Fin.ext ?_, ?_⟩ <;> omega

@[simp] theorem pageImage_length (bytes : List Byte) : (pageImage bytes).length = 64 := by
  simp [pageImage]
  omega

theorem Memory.fillPage_wf (m : Memory) (p : Page) (bytes : List Byte) (h : Memory.wf m) :
    Memory.wf (Memory.fillPage m p bytes) := by
  refine Memory.writeBytes_wf _ _ _ h ?_
  have := p.isLt
  simp [pageAddress]
  omega

/-- A page filled reads as its image. -/
theorem Memory.readByte_fillPage_in (m : Memory) (p : Page) (bytes : List Byte) (o : Nat) (hm : Memory.wf m)
    (h : o < 64) : Memory.readByte (Memory.fillPage m p bytes) (pageAddress p o) = (pageImage bytes)[o]'(by simpa) := by
  have hp := p.isLt
  have hb : pageAddress p 0 + (pageImage bytes).length ≤ 16384 := by
    simp [pageAddress]
    omega
  have := Memory.readByte_writeBytes_in m (pageAddress p 0) o (pageImage bytes) hm hb (by simpa)
  rw [← this]
  simp [Memory.fillPage, pageAddress]

/-- Filling a page leaves every other page as it was. -/
theorem Memory.readByte_fillPage_other (m : Memory) (p q : Page) (bytes : List Byte) (o : Nat) (h : o < 64)
    (hpq : q ≠ p) : Memory.readByte (Memory.fillPage m p bytes) (pageAddress q o) = Memory.readByte m (pageAddress q o) := by
  have hne : q.val ≠ p.val := fun e => hpq (Fin.ext e)
  refine Memory.readByte_writeBytes_other _ _ _ _ ?_
  simp [pageAddress]
  omega

theorem Memory.setChainByte_wf (m : Memory) (chain : List Page) (o : Nat) (v : Byte) (h : Memory.wf m) :
    Memory.wf (Memory.setChainByte m chain o v) := by
  unfold Memory.setChainByte
  split
  · exact Memory.writeByte_wf _ _ _ h (pageAddress_lt _ _ (Nat.mod_lt _ (by decide)))
  · exact h

theorem putChain_wf (m : Memory) (chain : List Page) (o limit : Nat) (w : Word) (h : Memory.wf m) :
    Memory.wf (putChain m chain o limit w) := by
  unfold putChain
  split
  · exact Memory.setChainByte_wf _ _ _ _ (Memory.setChainByte_wf _ _ _ _ h)
  · exact Memory.setChainByte_wf _ _ _ _ h

theorem Memory.fillPages_wf (ps : List Page) (m : Memory) (h : Memory.wf m) :
    Memory.wf (ps.foldl (fun m p => Memory.fillPage m p []) m) := by
  induction ps generalizing m with
  | nil => exact h
  | cons p ps ih =>
    rw [List.foldl_cons]
    exact ih (Memory.fillPage m p []) (Memory.fillPage_wf m p [] h)

theorem StageMem.takeZeroed_wf (g : StageMem) (k : Nat) (h : Memory.wf g.mem) : Memory.wf (g.takeZeroed k).mem :=
  Memory.fillPages_wf (g.free.take k) g.mem h

@[simp] theorem StageMem.giveUp_mem (g : StageMem) : g.giveUp.mem = g.mem := rfl

@[simp] theorem StageMem.reserveTo_mem (g : StageMem) (c : Nat) : (g.reserveTo c).mem = g.mem := by
  unfold StageMem.reserveTo
  split <;> rfl

@[simp] theorem StageMem.returnChain_mem (g : StageMem) (chain : List Page) : (g.returnChain chain).mem = g.mem := rfl

/-- The two bytes of a word in a page chain: the low byte at the offset, the high byte behind it when it lies below
the limit, and every other byte as before. -/
theorem readByte_putChain (m : Memory) (chain : List Page) (o limit : Nat) (w : Word) (p : Page) (hm : Memory.wf m)
    (ho : o % 2 = 0) (hp : chain[o / 64]? = some p) (k : Nat) :
    Memory.readByte (putChain m chain o limit w) k =
      if k = pageAddress p (o % 64) then lowByte w
      else if k = pageAddress p (o % 64 + 1) ∧ o + 1 < limit then highByte w
      else Memory.readByte m k := by
  have hdiv : (o + 1) / 64 = o / 64 := by omega
  have hmod : (o + 1) % 64 = o % 64 + 1 := by omega
  have hlow : Memory.setChainByte m chain o (lowByte w) =
      Memory.writeByte m (pageAddress p (o % 64)) (lowByte w) := by simp [Memory.setChainByte, hp]
  have hwf := Memory.writeByte_wf m (pageAddress p (o % 64)) (lowByte w) hm
    (pageAddress_lt _ _ (Nat.mod_lt _ (by decide)))
  have hne : pageAddress p (o % 64 + 1) ≠ pageAddress p (o % 64) := by
    unfold pageAddress
    omega
  unfold putChain
  split
  · rename_i hlt
    rw [hlow]
    have hhigh : ∀ m', Memory.setChainByte m' chain (o + 1) (highByte w) =
        Memory.writeByte m' (pageAddress p (o % 64 + 1)) (highByte w) := by
      intro m'
      simp [Memory.setChainByte, hdiv, hmod, hp]
    rw [hhigh]
    by_cases h1 : k = pageAddress p (o % 64 + 1)
    · subst h1
      rw [Memory.readByte_writeByte_same _ _ _ hwf]
      simp [hne, hlt]
    · rw [Memory.readByte_writeByte_other _ _ _ _ (fun e => h1 e.symm)]
      by_cases h2 : k = pageAddress p (o % 64)
      · subst h2
        simp [Memory.readByte_writeByte_same _ _ _ hm]
      · rw [Memory.readByte_writeByte_other _ _ _ _ (fun e => h2 e.symm)]
        simp [h1, h2]
  · rename_i hlt
    rw [hlow]
    by_cases h2 : k = pageAddress p (o % 64)
    · subst h2
      simp [Memory.readByte_writeByte_same _ _ _ hm]
    · rw [Memory.readByte_writeByte_other _ _ _ _ (fun e => h2 e.symm)]
      simp [h2, hlt]

end Sys2Proof.Machine
end

