-- ==== Sys2Proof/Laws/Specs.lean ====
section
/-!
SUPPORT. What each shared operation does, said once, so that a later proof cites the lemma and does not unfold the
operation.
-/

namespace Sys2Proof.Machine

variable (s : State)

/-! ### Taking a host access or an event -/

theorem State.taken_of_held (f : State → State) (h : s.host.held = true) : s.taken f = s := by
  simp [State.taken, h]

theorem State.taken_of_running (f : State → State) (h : s.host.held = false) : s.taken f = f s := by
  simp [State.taken, h]

theorem State.hostRead_of_held (f : State → Word × State) (h : s.host.held = true) :
    s.hostRead f = s.withHost fun p => { p with readData := 0 } := by
  simp [State.hostRead, h]

theorem State.hostRead_of_running (f : State → Word × State) (h : s.host.held = false) :
    s.hostRead f = (f s).2.withHost fun p => { p with readData := (f s).1 } := by
  simp [State.hostRead, h]

/-! ### Events -/

theorem State.hasRecord_iff (src : Source) :
    s.hasRecord src = true ↔ ∃ r ∈ s.events.records, r.source = src := by
  simp [State.hasRecord]

theorem State.report_of_new (src : Source) (k : EventKind) (d : Detail) (h : s.hasRecord src = false) :
    s.report src k d =
      s.post { source := src, kind := k, detail := d, value := none, stationStatus := none, repeats := 0,
               alsoSeen := 0, timestamp := s.stamp } := by
  simp [State.report, h]

theorem State.report_of_waiting (src : Source) (k : EventKind) (d : Detail) (h : s.hasRecord src = true) :
    s.report src k d =
      s.withEvents fun e =>
        { e with records := e.records.map fun r => if r.source = src then r.fold k d else r } := by
  simp [State.report, h]

@[simp] theorem EventRecord.fold_source (r : EventRecord) (k : EventKind) (d : Detail) :
    (r.fold k d).source = r.source := rfl

@[simp] theorem EventRecord.fold_timestamp (r : EventRecord) (k : EventKind) (d : Detail) :
    (r.fold k d).timestamp = r.timestamp := rfl

/-- The sources of the queue after an occurrence: one more at the tail, or the same. -/
theorem State.report_sources (src : Source) (k : EventKind) (d : Detail) :
    (s.report src k d).events.records.map EventRecord.source =
      if s.hasRecord src then s.events.records.map EventRecord.source
      else s.events.records.map EventRecord.source ++ [src] := by
  unfold State.report
  split
  · simp only [State.withEvents_events, List.map_map]
    refine List.map_congr_left ?_
    intro r _
    simp only [Function.comp]
    split <;> simp
  · simp [State.post]

@[simp] theorem State.report_snapshot (src : Source) (k : EventKind) (d : Detail) :
    (s.report src k d).events.snapshot = s.events.snapshot := by
  unfold State.report
  split <;> rfl

/-! ### Presence -/

/-- A frame seen leaves miss count 0; an UNKNOWN or SILENT station becomes ONLINE (R93). -/
theorem State.stationSeen_station (a : StationNo) :
    (s.stationSeen a).stations[a] =
      { s.stations[a] with
        missCount := 0
        state := match s.stations[a].state with
          | .unknown => .online
          | .silent => .online
          | x => x } := by
  unfold State.stationSeen
  split <;> simp_all

/-- The miss count after a miss, and the state at the third (R94). -/
theorem State.miss_station (a : StationNo) :
    (s.miss a).stations[a] =
      { s.stations[a] with
        missCount := if s.stations[a].missCount < 3 then s.stations[a].missCount + 1 else s.stations[a].missCount
        state :=
          if 3 ≤ s.stations[a].missCount + 1 then
            match s.stations[a].state with
            | .unknown => .silent
            | .online => .silent
            | x => x
          else s.stations[a].state } := by
  unfold State.miss Config.missLimit
  split
  · split <;> simp_all
  · simp_all

/-! ### Pages -/

/-- No page is lost or made when the reservation list is brought to a length (R126, R130). -/
theorem StageMem.reserveTo_pages (g : StageMem) (c : Nat) :
    ((g.reserveTo c).free ++ (g.reserveTo c).reserved).Perm (g.free ++ g.reserved) := by
  unfold StageMem.reserveTo
  split
  · have h := List.take_append_drop (c - g.reserved.length) g.free
    have h1 : (g.free.drop (c - g.reserved.length) ++ (g.reserved ++ g.free.take (c - g.reserved.length))).Perm
        ((g.free.take (c - g.reserved.length) ++ g.free.drop (c - g.reserved.length)) ++ g.reserved) := by
      refine (List.perm_append_comm.append_left _).trans ?_
      rw [← List.append_assoc]
      exact List.perm_append_comm.append_right _
    rw [h] at h1
    exact h1
  · have h := List.take_append_drop c g.reserved
    have h1 : (g.reserved.drop c ++ g.free ++ g.reserved.take c).Perm (g.free ++ (g.reserved.take c ++ g.reserved.drop c)) := by
      refine List.perm_append_comm.trans ?_
      rw [← List.append_assoc]
      exact List.perm_append_comm
    rw [h] at h1
    exact h1

/-- No page is lost or made when the reservation list is given up (R131). -/
theorem StageMem.giveUp_pages (g : StageMem) :
    (g.giveUp.free ++ g.giveUp.reserved).Perm (g.free ++ g.reserved) := by
  simpa [StageMem.giveUp] using List.perm_append_comm

@[simp] theorem StageMem.giveUp_reserved (g : StageMem) : g.giveUp.reserved = [] := rfl

/-- The reservation list has the length asked for, as far as the free list allows. -/
theorem StageMem.reserveTo_length (g : StageMem) (c : Nat) (h : c ≤ g.free.length + g.reserved.length) :
    (g.reserveTo c).reserved.length = c := by
  unfold StageMem.reserveTo
  split
  · simp
    omega
  · simp
    omega

/-! ### Lists -/

/-- A slot that leaves every list is in none. -/
theorem Arbiter.without_not_mem (g : Arbiter) (n : SlotNo) :
    n ∉ (g.without n).level1 ∧ n ∉ (g.without n).level0 ∧ n ∉ (g.without n).abortList ∧
      n ∉ (g.without n).poolList ∧ n ∉ (g.without n).recallList := by
  simp [Arbiter.without]

/-- A slot is inserted once, and every other entry keeps its place. -/
theorem insertByRemaining_perm (rem : SlotNo → Nat) (n : SlotNo) (own : Nat) (l : List SlotNo) :
    (insertByRemaining rem n own l).Perm (n :: l) := by
  induction l with
  | nil => exact List.Perm.refl _
  | cons m ms ih =>
    unfold insertByRemaining
    split
    · exact (List.Perm.cons m ih).trans (List.Perm.swap n m ms)
    · exact List.Perm.refl _

/-- The deadline list stays in ascending remaining time (R88). -/
theorem insertByRemaining_sorted (rem : SlotNo → Nat) (n : SlotNo) (l : List SlotNo)
    (h : l.Pairwise fun a b => rem a ≤ rem b) :
    (insertByRemaining rem n (rem n) l).Pairwise fun a b => rem a ≤ rem b := by
  induction l with
  | nil => simp [insertByRemaining]
  | cons m ms ih =>
    have hm := List.pairwise_cons.mp h
    unfold insertByRemaining
    split
    · rename_i hle
      refine List.pairwise_cons.mpr ⟨?_, ih hm.2⟩
      intro b hb
      rcases List.mem_cons.mp ((insertByRemaining_perm rem n (rem n) ms).mem_iff.mp hb) with rfl | hb
      · exact hle
      · exact hm.1 b hb
    · rename_i hgt
      refine List.pairwise_cons.mpr ⟨?_, h⟩
      intro b hb
      rcases List.mem_cons.mp hb with rfl | hb
      · omega
      · have := hm.1 b hb
        omega

/-! ### Entry into DONE -/

theorem State.enterDone_of_free (n : SlotNo) (f : FinalStatus) (st : Option Byte) (res : List Byte)
    (h : s.slots[n] = none) : s.enterDone n f st res = s := by
  simp [State.enterDone, h]

/-- All that an entry into DONE does (R25). -/
theorem State.enterDone_spec (n : SlotNo) (x : Exchange) (f : FinalStatus) (st : Option Byte) (res : List Byte)
    (h : s.slots[n] = some x) :
    s.enterDone n f st res =
      { s with
        slots := s.slots.set n (some { x with st := .done f st true (if x.op = .control then res else []) })
        stage := if x.isConnectedRead then s.stage.giveUp else s.stage
        stations := (s.freeTagOf x).stations
        arb := s.arb.without n
        link := { s.link with op := s.link.op.unbind n }
        park := { s.park with deadlines := s.park.deadlines.filter (· ≠ n) }
        events := { s.events with records := s.events.records ++ [completionRecord s n x f st] } } := by
  unfold State.enterDone State.freeTagOf
  simp only [h]
  cases x.st.tag? <;> cases x.isConnectedRead <;> rfl

/-- Nothing of the operation but its cleanup entries changes when a slot ends. -/
theorem LinkOp.unbind_of_not_poll (op : LinkOp) (n : SlotNo) (h : ∀ w, op ≠ .poll w) : op.unbind n = op := by
  cases op <;> first | rfl | exact absurd rfl (h _)

/-! ### The connected slot -/

/-- What it means that a connection runs with its slot. -/
theorem State.carried_spec (k : Carried) (h : s.carried = some k) :
    s.link.op = .exchange k.c ∧ s.slots[k.c.slot] = some k.x ∧ k.x.st = .connected k.tag k.retry k.waiting := by
  unfold State.carried at h
  split at h
  · rename_i c hop
    split at h
    · rename_i x hx
      split at h
      · rename_i t r p hst
        cases h
        exact ⟨hop, hx, hst⟩
      · cases h
    · cases h
  · cases h

theorem State.carried_of (c : Connection) (x : Exchange) (t : Tag) (r : Nat) (p : Option Fatal)
    (hop : s.link.op = .exchange c) (hx : s.slots[c.slot] = some x) (hst : x.st = .connected t r p) :
    s.carried = some { c := c, x := x, tag := t, retry := r, waiting := p } := by
  simp [State.carried, hop, hx, hst]

/-! ### The arbiter -/

theorem State.choose_of_busy (h : s.link.op ≠ .idle) : s.choose = s := by
  unfold State.choose
  split
  · rename_i hop
    exact absurd hop h
  · rfl

theorem State.choose_of_disabled (h : s.host.linkEnable = false) : s.choose = s := by
  unfold State.choose
  split
  · simp [h]
  · rfl

theorem State.choose_of_enabled (hop : s.link.op = .idle) (h : s.host.linkEnable = true) :
    s.choose = s.grantFirst := by
  simp [State.choose, hop, h]

/-- A choice is one grant, or leaves the state (R117). -/
theorem State.grantFirst_cases :
    s.grantFirst = s ∨ (∃ n, s.grantFirst = s.grantVisit n) ∨ (∃ n, s.grantFirst = s.grantResume n) ∨
      s.grantFirst = s.grantPoll ∨ ∃ n q, s.issuePick = some (n, q) ∧ s.grantFirst = s.grantCall n q := by
  unfold State.grantFirst
  (repeat' split)
  · exact .inr (.inl ⟨_, rfl⟩)
  · exact .inr (.inr (.inl ⟨_, rfl⟩))
  · exact .inr (.inr (.inl ⟨_, rfl⟩))
  · exact .inr (.inr (.inr (.inl rfl)))
  · rename_i n q hp
    exact .inr (.inr (.inr (.inr ⟨n, q, hp, rfl⟩)))
  · exact .inl rfl

end Sys2Proof.Machine
end

