-- ==== Sys2Proof/Laws/Written.lean ====
section
/-!
SUPPORT. The shared operations equal the states that Safety writes out in full, so that a later proof goes from one to
the other in one step.
-/

namespace Sys2Proof.Machine

variable (s : State)

theorem Vector.set_get {α : Type} {n : Nat} (v : Vector α n) (i : Fin n) : v.set i v[i] = v := by
  ext j hj
  rw [Vector.getElem_set]
  split
  · next h => subst h; rfl
  · rfl

theorem State.result_eq (c : ResultCode) (v : Nat) : s.result c v = s.answered c v := rfl

theorem State.misuse_eq (c : StageFault) :
    s.misuse c = { s with host := { s.host with hostFault := misused s.host.hostFault c } } := by
  rcases h : s.host.hostFault with _ | ⟨first, n⟩ <;> simp [State.misuse, State.withHost, misused, h]

theorem State.report_eq (src : Source) (k : EventKind) (d : Detail) :
    s.report src k d = { s with events := { s.events with
      records := recordsAfter s.events.records src k d (alsoSeenMark k d) s.park.timebase } } := by
  unfold State.report recordsAfter
  by_cases h : ∃ r ∈ s.events.records, r.source = src
  · rw [if_pos ((State.hasRecord_iff s src).mpr h), if_pos h]; rfl
  · rw [if_neg (fun g => h ((State.hasRecord_iff s src).mp g)), if_neg h]; rfl

theorem State.linkFault_eq (c : LinkFault) : s.linkFault c = s.faulted c := by
  unfold State.linkFault State.faulted
  rw [State.report_eq]
  cases c <;> rfl

theorem State.stationSeen_eq (a : StationNo) : s.stationSeen a = s.seen a := by
  unfold State.stationSeen State.seen
  generalize hv : s.stations[a] = v
  rw [Fin.getElem_fin] at hv
  cases h : v.state <;> simp [State.report_eq, State.withStation, alsoSeenMark, hv] <;> simp [← h]

theorem State.miss_eq (a : StationNo) : s.miss a = s.missed a := by
  unfold State.miss State.missed
  generalize hv : s.stations[a] = v
  rw [Fin.getElem_fin] at hv
  have h1 : Config.missLimit ≤ v.missCount + 1 ↔ 2 ≤ v.missCount := by unfold Config.missLimit; omega
  by_cases h : 2 ≤ v.missCount
  · rw [if_pos (h1.mpr h)]
    cases hs : v.state <;>
      simp [State.report_eq, State.withStation, alsoSeenMark, Config.missLimit, hv, h] <;> simp [hs]
  · rw [if_neg (fun g => h (h1.mp g))]
    simp [h, State.withStation, Config.missLimit, hv]

theorem State.enterDone_eq (n : SlotNo) (x : Exchange) (f : FinalStatus) (st : Option Byte) (res : List Byte)
    (h : s.slots[n] = some x) (hr : res = [] ∨ x.op = .control) :
    s.enterDone n f st res = s.afterDone n x f st res := by
  unfold State.enterDone State.afterDone
  rw [h]
  have hk : (if x.op = .control then res else []) = res := by
    rcases hr with hr | hr <;> simp [hr]
  simp only [hk]
  unfold State.freeTagOf State.setTag
  cases ht : x.st.tag? <;> cases hc : x.isConnectedRead <;>
    simp [State.leaveLists, State.withArb, State.withPark, State.withLink, State.setSlot, State.post, State.withEvents,
      State.giveUpReserved, State.withStage, State.withStation, Arbiter.without, LinkOp.unbind, StageMem.giveUp,
      completionRecord, State.stamp] <;>
    cases s.link.op <;> rfl

theorem State.condemn_eq (n : SlotNo) (x : Exchange) (t : Tag) (f : Fatal) :
    s.condemn n x t f = s.condemnedTo n x t f := rfl

theorem State.recalled_eq (n : SlotNo) (x : Exchange) (t : Tag) (r : ParkReason) :
    s.recalled n x t r = s.recalledTo n x t r := rfl

theorem State.endOp_eq : s.endOp = { s with link := idleLink } := rfl

theorem State.setOp_send_eq (op : LinkOp) (f : Frame) :
    (s.setOp op).send f = { s with link := sendingLink op f } := rfl

theorem State.openLate_eq : s.openLate = s.afterExpiry := rfl

theorem State.badFrame_eq (c : LinkFault) : s.badFrame c = s.badFrameTaken c := by
  unfold State.badFrame State.badFrameTaken
  rw [State.linkFault_eq]
  rfl

theorem State.deaf_iff (withExpiry : Bool) : s.deaf withExpiry = true ↔ ¬ s.hears withExpiry := by
  unfold State.deaf State.hears
  cases s.link.sending <;> cases withExpiry <;> cases s.link.lateOpen <;> cases s.link.op <;> simp [LinkOp.isResetting]

/-! ### The frames -/

theorem abortFrame_eq (a : StationNo) (t : Tag) : abortFrame a t = abortOf a t := rfl

theorem ackFrame_eq (x : Exchange) (t : Tag) (seq : Seq) (credit : Nat) :
    ackFrame x t seq credit = ackOf x t seq credit := rfl

theorem carriedParams_eq (x : Exchange) : carriedParams x = paramsOf x := by
  unfold carriedParams paramsOf
  cases x.op <;> rfl

theorem callFrame_eq (x : Exchange) (t : Tag) : callFrame x t = callOf x t := by
  unfold callFrame callOf headFrame frameTo opCode
  rw [carriedParams_eq]
  rfl

theorem resumeFrame_eq (x : Exchange) (t : Tag) : resumeFrame x t = resumeOf x t := by
  unfold resumeFrame resumeOf headFrame frameTo
  rw [carriedParams_eq]
  rfl

theorem openingFrame_eq (resumed : Bool) (x : Exchange) (t : Tag) :
    openingFrame resumed x t = if resumed then resumeOf x t else callOf x t := by
  unfold openingFrame
  rw [resumeFrame_eq, callFrame_eq]

theorem newConnection_eq (n : SlotNo) (x : Exchange) (resumed : Bool) :
    newConnection s n x resumed = openedConnection n x s.host.retryLimit.toNat resumed := rfl

/-- The page that holds frame `j` of a WRITE is read whole, or as far as the data goes (R41). -/
theorem dataFrame_eq (m : Memory) (k : Carried) (i : Nat) (hop : k.x.op = .write) (hr : k.x.inRange = true)
    (hj : k.x.doneCount / 64 + i < frames k.x.count) :
    dataFrame m k i =
      dataOf m k.x k.tag (k.c.oldest + BitVec.ofNat 3 i) (k.x.doneCount / 64 + i) (i + 1 == k.c.burst) := by
  have hlen : k.x.chain.length = frames k.x.count := by
    simp only [Exchange.inRange, Exchange.areasFit, hop, Bool.and_eq_true, decide_eq_true_eq] at hr
    simp_all
  have hlt : k.x.doneCount / 64 + i < k.x.chain.length := by omega
  have hbytes : Memory.pageBytes m k.x.chain[k.x.doneCount / 64 + i] (dataLength k.x.count (k.x.doneCount / 64 + i)) =
      writeBytes m k.x (k.x.doneCount / 64 + i) := by
    have hn : dataLength k.x.count (k.x.doneCount / 64 + i) = min 64 (k.x.count - 64 * (k.x.doneCount / 64 + i)) := by
      unfold dataLength
      unfold frames at hj ⊢
      split <;> omega
    unfold Memory.pageBytes writeBytes
    rw [hn]
    refine List.map_congr_left fun o ho => ?_
    have ho' : o < 64 := by
      have := List.mem_range.mp ho
      omega
    have hdiv : (64 * (k.x.doneCount / 64 + i) + o) / 64 = k.x.doneCount / 64 + i := by omega
    have hmod : (64 * (k.x.doneCount / 64 + i) + o) % 64 = o := by omega
    simp [Memory.chainByte, hdiv, hmod, hlt]
  unfold dataFrame dataOf headFrame frameTo
  simp [hlt, hbytes]

/-! ### The conduct of an operation -/

theorem StageMem.reserveTo_eq (g : StageMem) (credit : Nat) : g.reserveTo credit = g.withReserved credit := by
  unfold StageMem.reserveTo StageMem.withReserved
  split
  · next h => simp [List.take_append, List.drop_append, List.take_of_length_le (Nat.le_of_lt h),
      List.drop_eq_nil_of_le (Nat.le_of_lt h)]
  · next h =>
    have h0 : credit - g.reserved.length = 0 := by omega
    simp [List.take_append, List.drop_append, h0]

theorem State.enterAbortPhase_eq (k : Carried) (f : Fatal) (h : k.waiting = some f) :
    s.enterAbortPhase k = s.abortPhaseOf k.c k.x k.tag f := by
  unfold State.enterAbortPhase State.abortPhaseOf
  simp only [State.carry, h]
  rfl

theorem State.exhausted_eq (k : Carried) (h : k.waiting = none) :
    s.exhausted k = s.abortPhaseOf k.c k.x k.tag .linkError := by
  refine State.enterAbortPhase_eq s (k.condemned .linkError) .linkError ?_
  simp [Carried.condemned, h]

theorem State.protocolError_eq (k : Carried) (hturn : s.link.turn = .head) (h : k.waiting = none) :
    s.protocolError k = s.abortPhaseOf k.c k.x k.tag .protocol := by
  unfold State.protocolError State.abortAtTurn
  rw [if_pos hturn]
  refine State.enterAbortPhase_eq s (k.condemned .protocol) .protocol ?_
  simp [Carried.condemned, h]

/-- A burst is the one R53 gives: its size, its connection record and the bytes of its first frame. -/
theorem State.startBurst_eq (k : Carried) (credit : Nat) (hop : k.x.op = .write) (hr : k.x.inRange = true)
    (hc : k.c.stationCredit = some credit) (hd : k.x.doneCount < k.x.count) (hw : k.waiting = none) :
    s.startBurst k = s.burstFrom k.c k.x k.tag k.retry credit := by
  have hj : k.x.doneCount / 64 + 0 < frames k.x.count := by
    unfold frames
    omega
  unfold State.startBurst State.burstFrom
  have hf (k' : Carried) (hx : k'.x = k.x) (ht : k'.tag = k.tag) (ho : k'.c.oldest = k.c.oldest) :
      dataFrame s.stage.mem k' 0 =
        dataOf s.stage.mem k.x k.tag k.c.oldest (k.x.doneCount / 64) (k'.c.burst == 1) := by
    rw [dataFrame_eq _ k' 0 (hx ▸ hop) (hx ▸ hr) (hx ▸ hj), hx, ht, ho]
    simp [BEq.comm]
  simp only [hc, Option.getD_some, framesRemaining]
  rw [hf]
  case hx | ht | ho => rfl
  simp [State.carry, State.setOp_send_eq, State.setSlot, hw]

/-- A grant point does what R59 and R60 say. -/
theorem State.grantPoint_eq (k : Carried) (hop : k.x.op = .read) (hw : k.waiting = none) :
    s.grantPoint k = s.grantOf k.c k.x k.tag k.retry := by
  have hg : s.stage.giveUp = s.stage.withReserved 0 := by simp [StageMem.giveUp, StageMem.withReserved]
  unfold State.grantPoint State.grantOf
  have hr : k.dataRemains = true ↔ k.c.dataEnded = false ∧ k.x.doneCount < k.x.count := by
    simp [Carried.dataRemains]
  by_cases h : k.c.dataEnded = false ∧ k.x.doneCount < k.x.count
  · rw [if_pos (hr.mpr h), if_pos h]
    simp only [State.grantCredit, framesRemaining, StageMem.reserveTo_eq]
    split
    · next h0 =>
      simp only [h0]
      rfl
    · simp [State.carry, State.setOp_send_eq, State.setSlot, State.withStage, hw, ackFrame_eq]
  · rw [if_neg (fun g => h (hr.mp g)), if_neg h]
    simp [State.sendClosingAck, State.carry, State.setOp_send_eq, State.setSlot, State.giveUpReserved, State.withStage,
      hw, hop, hg, ackFrame_eq]

theorem State.takeUp_eq (n : SlotNo) : s.takeUp n = s.takenUp (some n) := by
  unfold State.takeUp State.takenUp
  cases h : s.slots[n] with
  | none => rw [Fin.getElem_fin] at h; simp only [Fin.getElem_fin, h]
  | some x =>
    rw [Fin.getElem_fin] at h
    cases hx : x.st <;> simp only [Fin.getElem_fin, h, hx]
    rfl

/-- The cleanup goes on with the first entry bound (R107, R109), or ends when none is left. -/
theorem State.serveCleanup_eq (w : PollWindow) :
    (s.serveCleanup w).choose = s.cleanupGoesOn w w.cleanup := by
  rcases hw : w.cleanup with _ | ⟨e, es⟩
  · unfold State.serveCleanup State.cleanupGoesOn
    rw [hw]
    rfl
  · have ht : s.serveCleanup w =
        ((s.takenUp e.slot).setOp (.poll { w with phase := .cleaning })).send (abortFrame e.station e.tag) := by
      unfold State.serveCleanup
      rw [hw]
      cases he : e.slot with
      | none => simp only [he]; rfl
      | some n => simp only [he, State.takeUp_eq]
    rw [ht, State.choose_of_busy _ (by simp)]
    simp only [State.cleanupGoesOn, State.setOp_send_eq, abortFrame_eq, ← hw]

/-! ### The poll window and the timers -/

theorem State.takeAttention_eq (a : StationNo) (code : Option Byte) : s.takeAttention a code = s.attended a code := by
  cases code with
  | none => rfl
  | some b =>
    simp only [State.takeAttention, State.attention, State.attended, State.report_eq, State.withStation]
    rfl

/-- A reply slot that ends is followed by the next one, or by what follows the last (R105, R109). -/
theorem State.endReplySlot_eq (w : PollWindow) (a : StationNo) (rest : List StationNo) (hop : s.link.op = .poll w)
    (hl : w.left = a :: rest) : s.endReplySlot.choose = s.slotGoesOn w rest := by
  unfold State.endReplySlot State.slotGoesOn State.openReplySlot
  rw [hop]
  simp only [hl, List.tail_cons]
  cases rest with
  | nil => exact State.serveCleanup_eq s { w with left := [] }
  | cons b more => exact State.choose_of_busy _ (by simp [State.withLink])

theorem State.pollTimerExpires_eq : s.pollTimerExpires = s.pollTimeOver := rfl

theorem State.someStationPark_iff : s.someStationPark = true ↔ ∃ n : SlotNo, s.isStationParked n = true := by
  simp only [State.someStationPark, List.any_eq_true, Vector.mem_toList_iff, Vector.mem_iff_getElem]
  constructor
  · rintro ⟨x, ⟨i, hi, rfl⟩, h⟩
    refine ⟨⟨i, hi⟩, ?_⟩
    unfold State.isStationParked State.slotState
    rw [Fin.getElem_fin]
    revert h
    cases s.slots[i] with
    | none => simp
    | some e => cases h : e.st <;> simp [h]
  · rintro ⟨n, h⟩
    refine ⟨s.slots[n.val], ⟨n.val, n.isLt, rfl⟩, ?_⟩
    revert h
    unfold State.isStationParked State.slotState
    rw [Fin.getElem_fin]
    cases s.slots[n.val] with
    | none => simp
    | some e => cases h : e.st <;> simp [h]

/-- A poll is eligible as R104 lists it. -/
theorem State.pollEligible_iff (hr : s.arb.recallList = []) : s.pollEligible = true ↔ s.pollCalledFor := by
  have hall (p : Station → Bool) : s.stations.toList.any p = true ↔ ∃ a : StationNo, p s.stations[a] = true := by
    simp only [List.any_eq_true, Vector.mem_toList_iff, Vector.mem_iff_getElem]
    constructor
    · rintro ⟨x, ⟨i, hi, rfl⟩, h⟩
      exact ⟨⟨i, hi⟩, h⟩
    · rintro ⟨a, h⟩
      exact ⟨_, ⟨a.val, a.isLt, rfl⟩, h⟩
  simp only [State.pollEligible, State.pollCalledFor, hr, List.isEmpty_nil, Bool.and_true, Bool.and_eq_true,
    Bool.or_eq_true, hall, State.someStationPark_iff, Station.isOffline, Bool.not_eq_true', beq_eq_false_iff_ne, ne_eq,
    beq_iff_eq, and_assoc, or_assoc]

theorem State.send_eq (f : Frame) : s.send f = { s with link := sendingLink s.link.op f } := rfl

end Sys2Proof.Machine
end

