-- ==== Sys2Proof/Tests/Slice0.lean ====
section
/-!
SUPPORT. Tests. Each expected value comes from the spec: the example or the rule its comment names. Then, for each
obligation with hypotheses, a theorem `witness_<its name>`: concrete states and operands that meet the hypotheses of
each of its clauses.
-/

set_option Elab.async false

namespace Sys2Proof.Tests

open Sys2Proof.Machine

/-! ### Small states -/

/-- The state a step answers. -/
def after (c : Instr) (s : State) : State :=
  match exec c s with
  | .next t => t
  | _ => State.reset

/-- After a link reset, with LINK_ENABLE clear. -/
def ready : State := { State.reset with link := idleLink }

/-- After a link reset, with LINK_ENABLE set. -/
def enabled : State := { ready with host := { ready.host with linkEnable := true } }

/-- A state with a slot record. -/
def put (s : State) (n : SlotNo) (x : Exchange) : State := { s with slots := s.slots.set n (some x) }

/-- A state with one argument register set. -/
def arg (s : State) (i : Fin 4) (w : Word) : State := { s with host := { s.host with args := s.host.args.set i w } }

/-- A slot record of station 3 with pages from page 0 on. -/
def job (op : Op) (count doneCount : Nat) (pages : List Page) (st : SlotState) : Exchange where
  op := op
  station := 2
  urgent := false
  unitAddress := 0x01020304
  count := count
  doneCount := doneCount
  busyCount := 0
  chain := pages
  params := if op = Op.control then [0, 0, 0, 0, 0, 0, 0, 0] else []
  st := st

/-- A connection of slot 0 in a phase. -/
def conn (phase : Phase) : Connection where
  slot := 0
  phase := phase
  base := 0
  oldest := 0
  nextSend := 0
  nextExpected := 0
  burst := 3
  stationCredit := some 3
  dataEnded := false
  progress := 0
  abortSent := phase == .abortSent
  retryLimit := 3
  resumed := false
  discarding := false

/-- Slot 0 in an exchange with station 3, which holds the turn. -/
def exchanging (x : Exchange) (c : Connection) : State :=
  { put ready 0 x with
    link := { op := .exchange c, turn := .station 2, replyTimer := some 64, sending := none, lateOpen := false } }

/-- Slot 0 waits for its station in a phase with a retry count and a pending status. -/
def waiting (op : Op) (phase : Phase) (retry : Nat) (p : Option Fatal) : State :=
  exchanging (job op 300 0 [] (.connected 0 retry p)) (conn phase)

/-- A WRITE of 300 bytes with its chain, waiting for its station. -/
def writing (doneCount : Nat) (phase : Phase) : State :=
  exchanging (job .write 300 doneCount [0, 1, 2, 3, 4] (.connected 0 0 none)) (conn phase)

/-- An abort visit to station 3 for slot 0, its ABORT sent. -/
def visiting (retry : Nat) : State :=
  { put ready 0 (job .read 300 0 [] (.aborting 0 .aborted (some retry))) with
    link := { op := .abortVisit 0 3, turn := .station 2, replyTimer := some 64, sending := none, lateOpen := false } }

/-- A poll window in its cleanup: the ABORT for station 3 sent, bound to slot 0 or unbound, and one for station 5 left. -/
def cleaningWindow (slot : Option SlotNo) : PollWindow :=
  { phase := .cleaning, mask := [2, 4], left := [], slotTime := 64
    cleanup := [{ station := 2, tag := 0, slot := slot }, { station := 4, tag := 7, slot := none }] }

/-- A state in that wait. -/
def cleaning (slot : Option SlotNo) : State :=
  { put ready 0 (job .read 300 0 [] (.aborting 0 .aborted (some 0))) with
    link := { op := .poll (cleaningWindow slot), turn := .station 2, replyTimer := some 64, sending := none
              lateOpen := false } }

/-- A frame body from station 3. -/
def body (payload : List Byte) : Received :=
  { address := 3, tag := 0, seq := 0, turn := false, last := false, payload := payload, withExpiry := false }

/-- A poll window with reply slots open for stations 3, 4 and 5, the first of them now. -/
def listening : PollWindow := { phase := .listening, mask := [2, 3, 4], left := [2, 3, 4], slotTime := 64, cleanup := [] }

/-- A state in that poll window. -/
def polling (s : State) : State :=
  { s with link := { op := .poll listening, turn := .replySlot 2, replyTimer := none, sending := none, lateOpen := false } }

/-- A state with a record in the queue. -/
def queued (s : State) (r : EventRecord) : State := { s with events := { records := [r], snapshot := none } }

/-- A completion record of slot 0. -/
def completion : EventRecord where
  source := .slot 0
  kind := .completion
  detail := .status .ok
  value := some 4096
  stationStatus := some 0
  repeats := 0
  alsoSeen := 0
  timestamp := 7

/-! ### WellFormed refuses what it should -/

theorem test_wellFormed_long_payload : (Instr.dataReceived (body (List.replicate 65 0))).wellFormed = false := by decide
theorem test_wellFormed_full_payload : (Instr.dataReceived (body (List.replicate 64 0))).wellFormed = true := by decide
theorem test_wellFormed_undamaged : (Instr.frameDamaged ⟨frameBytes { kind := .close, body := (body [0]).toFrameBody }, false⟩).wellFormed = false := by
  decide +kernel
theorem test_wellFormed_damaged : (Instr.frameDamaged ⟨[0x93, 0, 1, 0, 0, 0], false⟩).wellFormed = true := by decide +kernel
theorem test_wellFormed_known_code : (Instr.unknownCommandCode 10).wellFormed = false := by decide
theorem test_wellFormed_unknown_code : (Instr.unknownCommandCode 11).wellFormed = true := by decide
theorem test_wellFormed_own_row : (Instr.registerWrite 0x28 0).wellFormed = false := by decide
theorem test_wellFormed_clear_field : (Instr.hostFaultClear 3).wellFormed = false := by decide

/-! ### The registers and the stage port -/

/-- The defaults of R170 as the registers read them: REPLY_TIME 64, RETRY_LIMIT 3, POLL_INTERVAL 10. -/
theorem test_linkConfig_defaults : ready.readRegister 0x02 = 0x0340 ∧ ready.readRegister 0x03 = 10 := by decide +kernel

/-- R170: a REPLY_TIME below 8 is stored as 8, a POLL_INTERVAL of 0 as 1. -/
theorem test_linkConfig_clamps :
    (after (.linkConfigWrite false 0x0207) ready).readRegister 0x02 = 0x0208 ∧
    (after (.linkConfigWrite true 0) ready).readRegister 0x03 = 1 := by decide +kernel

/-- Section 10.5, the read across a carry: TIMEBASE_LO gives 0xFFFF and latches 0x0001. -/
theorem test_timebase_carry :
    (after .timebaseLoRead { ready with park := { timebase := 0x0001FFFF, deadlines := [] } }).host.readData = 0xFFFF ∧
    (after .timebaseLoRead { ready with park := { timebase := 0x0001FFFF, deadlines := [] } }).host.timebaseLatch = 1 := by
  decide +kernel

/-- Slot 5 of the example in section 7.3, a PREPARED CONTROL exchange of count 5, with the cursor at an offset. -/
def parameters (o : Word) : State :=
  let s := put ready 5 (job .control 5 0 [] .prepared)
  { s with host := { s.host with stageSlot := 5, stageOffset := o } }

/-- Section 7.3, the parameters example: at offset 4 the low byte is stored, the high one discarded. -/
theorem test_stage_odd_final_byte :
    ((after (.stageDataWrite 0x6655) (parameters 4)).slots[5].map Exchange.params) = some [0, 0, 0, 0, 0x55, 0, 0, 0] ∧
    (after (.stageDataWrite 0x6655) (parameters 4)).host.stageOffset = 6 := by decide +kernel

/-- Section 7.3, the parameters example: at offset 6 the write is refused, STAGE_RANGE with count 0. -/
theorem test_stage_beyond_count :
    (after (.stageDataWrite 0x8877) (parameters 6)).host.hostFault = some (.range, 0) ∧
    (after (.stageDataWrite 0x8877) (parameters 6)).host.stageOffset = 6 := by decide +kernel

/-- R133: a value above 31 leaves the cursor; an odd offset gives the even one below it, STAGE_ALIGN. -/
theorem test_stage_cursor :
    (after (.stageSlotWrite 32) (parameters 4)).host.stageSlot = 5 ∧
    (after (.stageOffsetWrite 7) (parameters 4)).host.stageOffset = 6 ∧
    (after (.stageOffsetWrite 7) (parameters 4)).host.hostFault = some (.align, 0) := by decide +kernel

/-- R136: a read at the limit minus 1 has a high byte of 0. -/
theorem test_stage_read_final_byte :
    (after .stageDataRead (put (parameters 4) 5 { job .control 5 0 [] .prepared with
      params := [0x11, 0x22, 0x33, 0x44, 0x55, 0x66, 0, 0] })).host.readData = 0x0055 := by decide +kernel

/-- R139: a second misuse raises the count and keeps the first cause; bit 2 clears the mark. -/
theorem test_hostFault_counts :
    (after (.stageSlotWrite 32) (after (.stageOffsetWrite 7) ready)).readRegister 0x08 = 0x0103 ∧
    (after (.hostFaultClear 4) (after (.stageOffsetWrite 7) ready)).readRegister 0x08 = 0 := by decide +kernel

/-- R174: a code that names no command is BAD_COMMAND, code 8, with value 0. -/
theorem test_bad_command : (after (.unknownCommandCode 11) ready).readRegister 0x15 = 8 := by decide +kernel

/-- R169, R174: a write to ARG1 is read back; a write to STATUS changes nothing. -/
theorem test_register_writes :
    (after (.registerWrite 0x12 0xBEEF) ready).readRegister 0x12 = 0xBEEF ∧
    (after (.registerWrite 0x06 0) ready).readRegister 0x06 = 256 := by decide +kernel

/-- R166: the line is asserted while a SLOT record is queued with its enable set. -/
theorem test_interrupt_line :
    (after (.intEnableWrite 1) (queued ready completion)).interruptAsserted = true ∧
    (after (.intEnableWrite 2) (queued ready completion)).interruptAsserted = false := by decide +kernel

/-- Section 11.4: EVENT0 of a completion of slot 0 with a station status: class 1, kind 1 in bits 7 to 9, bit 10. -/
theorem test_event0_word : (after .event0Read (queued ready completion)).host.readData = 0x0481 := by decide +kernel

/-- R164: a pop clears event unread. -/
theorem test_event_pop_clears_unread :
    ((after (.eventPop 0) (queued (put ready 0 (job .write 64 64 [0] (.done .ok (some 0) true []))) completion)).slots[0]).map
      Exchange.st = some (.done .ok (some 0) false []) := by decide +kernel

/-- Section 11.3: SLOT_VIEW0 of a PREPARED WRITE of station 3: state 1, op 2 in bits 3 and 4, station in bits 6 to 9. -/
theorem test_slot_view0 : (after .slotView0Read (put ready 0 (job .write 64 0 [0] .prepared))).host.readData = 0x00D1 := by
  decide +kernel

/-- Section 11.3: STATION_VIEW0 after reset: UNKNOWN 0, depth 1 in bits 2 to 5, credit max 2 in bits 6 to 8. -/
theorem test_station_view0 : (after .stationView0Read (after (.stationSelectWrite 1) ready)).host.readData = 0x0084 := by
  decide +kernel

/-! ### Commands -/

/-- R10, R11, R128: a WRITE of 130 bytes takes 3 pages into the lowest FREE slot. -/
theorem test_claim_write :
    ((after .claim (arg (arg ready 0 0x0203) 1 130)).slots[0]).map Exchange.chain = some [0, 1, 2] ∧
    (after .claim (arg (arg ready 0 0x0203) 1 130)).readRegister 0x06 = 253 := by decide +kernel

/-- R10: a count of 0 is out of range for a READ, and in range for a CONTROL. -/
theorem test_claim_count_zero :
    (after .claim (arg ready 0 0x0103)).host.resultCode = .badParam ∧
    (after .claim (arg ready 0 0x0303)).host.resultCode = .ok := by decide +kernel

/-- R132: a chain is pushed from its head, so its last page ends on top. -/
theorem test_release_order :
    (after .release (put ready 0 (job .write 130 0 [7, 8, 9] .prepared))).stage.free.take 3 = [9, 8, 7] := by decide +kernel

/-- R15: RELEASE with event unread set is EVENT_UNREAD. -/
theorem test_release_unread :
    (after .release (put ready 0 (job .read 64 0 [] (.done .ok none true [])))).host.resultCode = .eventUnread := by
  decide +kernel

/-- R12, R113: ISSUE at priority 0 joins level 0. -/
theorem test_issue : (after .issue (put ready 0 (job .read 64 0 [] .prepared))).arb.level0 = [0] := by decide +kernel

/-- R14: ABORT of a CONNECTED slot that has a pending status is ALREADY. -/
theorem test_abort_already :
    (after .abort (put ready 0 (job .read 64 0 [] (.connected 0 0 (some .protocol))))).host.resultCode = .already := by
  decide +kernel

/-- R24, R98: STATION_OFF ends a QUEUED slot of the station as STATION_LOST. -/
theorem test_station_off :
    ((after .stationOff (arg (put ready 0 (job .read 64 0 [] .queued)) 0 3)).slots[0]).map Exchange.st =
      some (.done .stationLost none true []) := by decide +kernel

/-- R97, R99: configuring needs OFFLINE; an address of 16 is BAD_PARAM. -/
theorem test_station_config :
    (after .stationConfig (arg (arg (arg (arg ready 0 3) 1 1) 2 1) 3 1)).host.resultCode = .badState ∧
    (after .stationOn (arg ready 0 16)).host.resultCode = .badParam := by decide +kernel

/-- R27, R152: a link reset ends a slot that holds a tag as LINK_RESET; a QUEUED slot stays. -/
theorem test_link_reset :
    ((after .linkReset (put ready 0 (job .read 64 0 [] (.parkedPool 0)))).slots[0]).map Exchange.st =
      some (.done .linkReset none true []) ∧
    ((after .linkReset (put ready 0 (job .read 64 0 [] .queued))).slots[0]).map Exchange.st = some .queued := by
  decide +kernel

/-- R155: the end of a link reset posts LINK READY and leaves the link idle. -/
theorem test_link_reset_end :
    (after .linkResetEnd (after .linkResetBreakEnd State.reset)).link.op = .idle ∧
    (after .linkResetEnd (after .linkResetBreakEnd State.reset)).events.records.map EventRecord.kind = [.ready] := by
  decide +kernel

/-- Section 6.3, choice 5 of the example: at counter 4 the level-0 slot is picked and the counter returns to 0. -/
theorem test_fairness :
    let s := put (put enabled 5 { job .read 64 0 [] .queued with urgent := true }) 10 { job .read 64 0 [] .queued with station := 3 }
    let t := after .pollNow { s with arb := { s.arb with level1 := [5], level0 := [10], fairness := 4 } }
    t.arb.fairness = 0 ∧ t.arb.level0 = [] ∧ t.arb.level1 = [5] := by decide +kernel

/-! ### The link -/

/-- The check value of the polynomial and the initial value that R183 names, over the digits 1 to 9 (its published
value). -/
theorem test_checkValue :
    checkValue [0x31, 0x32, 0x33, 0x34, 0x35, 0x36, 0x37, 0x38, 0x39] = 0x29B1 := by decide +kernel

/-- Section 3.3, the go-back example, third row: ACK(1, credit 3) of a burst of 3. -/
theorem test_go_back :
    let s := exchanging (job .write 300 0 [0, 1, 2, 3, 4] (.connected 0 0 none)) (conn .awaiting)
    let t := after (.ackReceived { body [3] with seq := 1 }) s
    (t.slots[0]).map Exchange.doneCount = some 64 ∧ (t.slots[0]).map Exchange.st = some (.connected 0 1 none) ∧
    (t.link.sending.map fun f => (f.kind, f.body.seq)) = some (.data, 1) := by decide +kernel

/-- R49, R71, R88: DEFER in OPENING parks the slot; its deadline is the timebase plus the park limit, modulo 2^32. -/
theorem test_defer_across_the_wrap :
    let s := exchanging (job .read 300 0 [] (.connected 0 0 none)) (conn .opening)
    let t := after (.deferReceived (body [0, 0])) { s with park := { timebase := 4294967040, deadlines := [] } }
    (t.slots[0]).map Exchange.st = some (.parkedStation 0 744) ∧ t.park.deadlines = [0] := by decide +kernel

/-- R90: at its deadline the slot is ABORTING with pending PARK_EXPIRED. -/
theorem test_deadline :
    let s := put ready 0 (job .read 300 0 [] (.parkedStation 0 1))
    (after .timebaseAdvance { s with park := { timebase := 0, deadlines := [0] } }).slots[0].map Exchange.st =
      some (.aborting 0 .parkExpired none) := by decide +kernel

/-- R19: a READ closed below its count with status 0 ends SHORT. -/
theorem test_close_short :
    ((after (.closeReceived (body [0])) (exchanging (job .read 300 0 [] (.connected 0 0 none)) (conn .opening))).slots[0]).map
      Exchange.st = some (.done .short (some 0) true []) := by decide +kernel

/-- R18: REFUSE with reason BUSY to a CALL queues the slot again and raises its busy count. -/
theorem test_refuse_busy :
    ((after (.refuseReceived (body [1])) (exchanging (job .read 300 0 [] (.connected 0 0 none)) (conn .opening))).slots[0]).map
      (fun x => (x.st, x.busyCount)) = some (.queued, 1) := by decide +kernel

/-- R59, R60: ACCEPT for a READ reserves credit max (2) pages and sends ACK with credit 2. -/
theorem test_accept_read :
    let t := after (.acceptReceived (body [0])) (exchanging (job .read 300 0 [] (.connected 0 0 none)) (conn .opening))
    t.stage.reserved = [0, 1] ∧ (t.link.sending.map fun f => (f.kind, f.body.payload)) = some (.ack, [2]) := by
  decide +kernel

/-- R61, R129: the last DATA frame of a READ fills the oldest reserved page. -/
theorem test_last_data :
    let s := exchanging (job .read 3 0 [] (.connected 0 0 none)) (conn .awaiting)
    let t := after (.dataReceived { body [0xA, 0xB, 0xC] with last := true })
      { s with stage := { s.stage with free := s.stage.free.drop 1, reserved := [0] } }
    (t.slots[0]).map (fun x => (x.chain, x.doneCount)) = some ([0], 3) ∧ Memory.readByte t.stage.mem 2 = 0xC ∧
    (t.link.sending.map fun f => (f.kind, f.body.seq, f.body.payload)) = some (.ack, 1, [0]) := by decide +kernel

/-- R66, R67: a CALL from a station is a protocol error: pending PROTOCOL and ABORT. -/
theorem test_head_only_kind :
    let t := after (.headOnlyKindReceived .call (body [])) (exchanging (job .read 3 0 [] (.connected 0 0 none)) (conn .opening))
    (t.slots[0]).map Exchange.st = some (.connected 0 0 (some .protocol)) ∧ t.link.sending.map Frame.kind = some .abort := by
  decide +kernel

/-- R29: a damaged frame records a link fault CRC and nothing else. -/
theorem test_damaged :
    (after (.frameDamaged ⟨[0x93, 0, 1, 0, 0, 0], false⟩) ready).events.records.map EventRecord.detail = [.cause .crc] := by
  decide +kernel

/-- R96, R106: an attention report in a REPLY is passed on. -/
theorem test_attention :
    (after (.replyReceived (body [2, 9])) (polling ready)).events.records.map EventRecord.detail = [.code 9] := by
  decide +kernel

/-- R82: a recall of a tag bound to no slot is an ORPHAN. -/
theorem test_orphan :
    (after (.replyReceived (body [1, 0, 0, 0])) (polling ready)).events.records.map EventRecord.detail =
      [.cause .orphan] := by decide +kernel

/-- R94, R107: at the third miss in a row a station falls SILENT. -/
theorem test_third_miss :
    let s := { ready with stations := ready.stations.set 2 { Station.atReset with missCount := 2, state := .online } }
    (after .replySlotTimeout (polling s)).stations[2].state = .silent := by decide +kernel

/-- R36, R52: an unanswered CALL is sent again and the retry count rises. -/
theorem test_resend :
    let t := after .replyTimerExpiry (exchanging (job .read 3 0 [] (.connected 0 2 none)) (conn .opening))
    (t.slots[0]).map Exchange.st = some (.connected 0 3 none) ∧ t.link.sending.map Frame.kind = some .call := by
  decide +kernel

/-- R36, R58: an ACK received together with the expiry, the expiry being taken first, is stray and acknowledges nothing;
R37: one that was in progress then is discarded, with no link fault. -/
theorem test_late_frame :
    let s := after .replyTimerExpiry (exchanging (job .write 300 0 [0, 1, 2, 3, 4] (.connected 0 0 none)) (conn .awaiting))
    let f := { body [3] with seq := 1 }
    (after (.ackReceived { f with withExpiry := true }) s).events.records.map EventRecord.detail = [.cause .stray] ∧
    ((after (.ackReceived { f with withExpiry := true }) s).slots[0]).map Exchange.doneCount = some 0 ∧
    after (.ackReceived f) s = s := by decide +kernel

/-- R30, R66: a POLL from the turn holder with the right tag is accepted, and is a protocol error. -/
theorem test_poll_received :
    let t := after (.headOnlyKindReceived .poll (body [])) (waiting .read .awaiting 0 none)
    (t.slots[0]).map Exchange.st = some (.connected 0 0 (some .protocol)) ∧ t.events.records = [] := by decide +kernel

/-- R30, R144, R150: from the turn holder a frame with another tag is stray, unless it is a REPLY (log entry 28 for POLL). -/
theorem test_other_tag :
    let f := { body [] with tag := 5 }
    let s := waiting .read .abortSent 0 (some .protocol)
    (after (.headOnlyKindReceived .poll f) s).events.records.map EventRecord.detail = [.cause .stray] ∧
    (after (.replyReceived f) s).link.sending.map Frame.kind = some .abort := by decide +kernel

/-- R34, R36: CALL sent passes the turn and starts the reply timer with REPLY_TIME. -/
theorem test_call_sent :
    let s := exchanging (job .read 3 0 [] (.connected 0 0 none)) (conn .opening)
    let t := after .callSent { s with link := sendingLink s.link.op (callFrame (job .read 3 0 [] .queued) 0) }
    t.link.turn = .station 2 ∧ t.link.replyTimer = some 64 := by decide +kernel

/-! ### Witnesses: the register window and the stage port -/

/-- A host that is held in reset. -/
def held : State := { State.reset with host := { State.reset.host with held := true } }

/-- A state with HOST_FAULT at its highest count. -/
def fullFault : State := { ready with host := { ready.host with hostFault := some (.align, 255) } }

/-- A PREPARED WRITE of 65 bytes in slot 0, with the cursor on its last byte. -/
def lastByte : State :=
  let s := put ready 0 (job .write 65 0 [4, 5] .prepared)
  { s with host := { s.host with stageOffset := 64 } }

theorem witness_HeldPartTakesNothing : held.host.held = true := rfl

theorem witness_ControlWriteSetsBothMarks :
    ready.host.held = false ∧ ready.arbiterRests ∧ enabled.host.held = false ∧ ¬ enabled.arbiterRests := by decide +kernel

theorem witness_LinkConfigAndIntEnableWrites : ready.host.held = false ∧ (queued ready completion).host.held = false := by
  decide +kernel

theorem witness_HostFaultShowsAndClears :
    (ready.host.held = false ∧ ready.host.hostFault = none) ∧
    (fullFault.host.held = false ∧ fullFault.host.hostFault = some (.align, 255)) := by decide +kernel

theorem witness_StageCursorWrites :
    ready.host.held = false ∧ (31 : Word).toNat = (31 : SlotNo).val ∧ 32 ≤ (32 : Word).toNat ∧
    (65534 : Word).toNat % 2 = 0 ∧ (65535 : Word).toNat % 2 = 1 := by decide +kernel

theorem witness_StageDataWriteStoresWord :
    (lastByte.host.held = false ∧ lastByte.slots[lastByte.host.stageSlot] = some (job .write 65 0 [4, 5] .prepared) ∧
      lastByte.host.stageOffset.toNat = 64 ∧ ([4, 5] : List Page)[64 / 64]? = some 5 ∧ Memory.wf lastByte.stage.mem) ∧
    ((parameters 4).host.held = false ∧
      (parameters 4).slots[(parameters 4).host.stageSlot] = some (job .control 5 0 [] .prepared) ∧
      (parameters 4).host.stageOffset.toNat = 4 ∧ (job .control 5 0 [] .prepared).params.length = 8) := by decide +kernel

theorem witness_StageDataReadReturnsArea :
    let chainBytes := Memory.chainByte lastByte.stage.mem [4, 5]
    let done := put lastByte 0 (job .read 65 65 [4, 5] (.done .ok (some 0) false []))
    let result := put ready 0 (job .control 0 0 [] (.done .ok (some 0) false [7]))
    (lastByte.host.held = false ∧ lastByte.slots[lastByte.host.stageSlot] = some (job .write 65 0 [4, 5] .prepared) ∧
      lastByte.host.stageOffset.toNat = 64 ∧ chainBytes = Memory.chainByte lastByte.stage.mem [4, 5] ∧ 64 < 65) ∧
    (done.host.held = false ∧ done.slots[done.host.stageSlot] = some (job .read 65 65 [4, 5] (.done .ok (some 0) false [])) ∧
      done.host.stageOffset.toNat = 64 ∧ (SlotState.done .ok (some 0) false []).isDone = true) ∧
    ((parameters 6).slots[(parameters 6).host.stageSlot] = some (job .control 5 0 [] .prepared) ∧
      (parameters 6).host.stageOffset.toNat = 6 ∧ 5 ≤ 6) ∧
    (result.slots[result.host.stageSlot] = some (job .control 0 0 [] (.done .ok (some 0) false [7])) ∧
      result.host.stageOffset.toNat = 0 ∧ 0 < [7].length) := by
  refine ⟨⟨by decide +kernel, by decide +kernel, by decide +kernel, rfl, by decide⟩, ?_, ?_, ?_⟩ <;> decide +kernel

theorem witness_StageAccessRefused :
    (ready.host.held = false ∧ ready.slots[ready.host.stageSlot] = none) ∧
    ((parameters 6).slots[(parameters 6).host.stageSlot] = some (job .control 5 0 [] .prepared) ∧
      5 ≤ (parameters 6).host.stageOffset.toNat) ∧
    ((put ready 0 (job .read 64 0 [] .queued)).slots[(0 : SlotNo)] = some (job .read 64 0 [] .queued) ∧
      SlotState.queued.isDone = false) := by decide +kernel

theorem witness_ReadWordsCarryTheRecords :
    let linked := waiting .read .abortSent 7 (some .aborted)
    let x := job .read 300 0 [] (.connected 0 7 (some .aborted))
    (completion.repeats ≤ 255 ∧ (∀ v, completion.value = some v → v ≤ 4096) ∧ completion.detail = .status .ok) ∧
    ((put ready 0 (job .write 65 0 [4, 5] .prepared)).slots[(0 : SlotNo)] = some (job .write 65 0 [4, 5] .prepared) ∧
      (job .write 65 0 [4, 5] .prepared).inRange = true ∧ [4, 5].length ≤ 64) ∧
    (linked.slots[(0 : SlotNo)] = some x ∧ x.inRange = true ∧ x.st = .connected 0 7 (some .aborted) ∧
      linked.link.op = .exchange (conn .abortSent) ∧ (conn .abortSent).slot = 0) ∧
    ready.slots[(31 : SlotNo)] = none ∧ Station.atReset.inRange := by
  refine ⟨⟨by decide, fun v h => ?_, rfl⟩, ?_, ?_, ?_, ?_⟩
  · cases h; decide
  all_goals decide +kernel

theorem witness_EventPopRemovesHead :
    let s := queued (put ready 0 (job .write 64 64 [0] (.done .ok (some 0) true []))) completion
    (s.host.held = false ∧ s.events.records = completion :: [] ∧ (s.events.records.map EventRecord.source).Nodup ∧
      s.slots[(0 : SlotNo)] = some (job .write 64 64 [0] (.done .ok (some 0) true []))) ∧
    ({ completion with source := .station 14 } : EventRecord).source = .station 14 ∧
    ({ completion with source := .link } : EventRecord).source = .link ∧ ready.events.records = [] := by decide +kernel

theorem witness_SnapshotReadsAndSelects :
    let s := fun (n : Byte) => { ready with host := { ready.host with slotSelect := n, stationSelect := n } }
    (ready.host.held = false ∧ ready.events.records = []) ∧ (queued ready completion).events.records = completion :: [] ∧
    (s 31).host.held = false ∧ (s 31).host.slotSelect.toNat = (31 : SlotNo).val ∧ 32 ≤ (s 32).host.slotSelect.toNat ∧
    (s 15).host.stationSelect.toNat = (14 : StationNo).val + 1 ∧ (s 0).host.stationSelect.toNat = 0 ∧
    16 ≤ (s 16).host.stationSelect.toNat := by decide +kernel

theorem witness_TimebaseReadsInTwoHalves : ready.host.held = false := rfl

theorem witness_RegisterWritesStoreOrIgnore :
    ready.host.held = false ∧ (0x15 : BitVec 7).toNat ∉
      [0x01, 0x02, 0x03, 0x04, 0x08, 0x10, 0x11, 0x12, 0x13, 0x14, 0x18, 0x21, 0x28, 0x29, 0x2A, 0x34] ∧
    11 ≤ (11 : Byte).toNat ∧ (10 : Word).toNat % 256 = 10 := by decide +kernel

/-! ### Witnesses: commands -/

/-- Every slot in use. -/
def noneFree : State := { ready with slots := Vector.replicate 32 (some (job .read 64 0 [] .prepared)) }

/-- Station 3 OFFLINE. -/
def offline : State := { ready with stations := ready.stations.set 2 { Station.atReset with state := .offline } }

theorem witness_SlotCommandRefusals :
    (ready.host.held = false ∧ ready.host.args[0].toNat % 256 = 0) ∧
    ((arg (arg offline 0 0x0203) 1 4096).host.args[0].toNat % 256 = 3 ∧ offline.stations[2].state = .offline) ∧
    ((arg (arg noneFree 0 0x0203) 1 1).host.args[0].toNat / 256 % 16 = 2 ∧ ∀ n : SlotNo, noneFree.slots[n] ≠ none) ∧
    ({ ready with stage := { ready.stage with free := [] } }.stage.free.length < frames 1) ∧
    32 ≤ (arg ready 0 32).host.args[0].toNat % 256 ∧ (arg ready 0 31).host.args[0].toNat % 256 = (31 : SlotNo).val ∧
    ready.slots[(31 : SlotNo)] = none ∧
    (put offline 0 (job .read 64 0 [] .prepared)).slots[(0 : SlotNo)] = some (job .read 64 0 [] .prepared) ∧
    (SlotState.done .ok none true []).isUnread = true ∧ SlotState.queued.isDone = false := by decide +kernel

theorem witness_ClaimTakesLowestFreeSlot :
    let s := arg (arg ready 0 0x120F) 1 4096
    s.host.held = false ∧ s.host.args[0].toNat % 256 = (14 : StationNo).val + 1 ∧
    s.host.args[0].toNat / 256 % 16 = Op.write.code ∧ s.host.args[0].toNat / 4096 % 4 ≤ 1 ∧
    s.host.args[1].toNat = 4096 ∧ s.stations[(14 : StationNo)].state ≠ .offline ∧ s.slots[(0 : SlotNo)] = none ∧
    (∀ m : SlotNo, m < 0 → s.slots[m] ≠ none) ∧ frames 4096 ≤ s.stage.free.length ∧ Memory.wf s.stage.mem := by
  decide +kernel

theorem witness_IssueQueuesAtTail :
    let s := put ready 0 (job .read 64 0 [] .prepared)
    s.host.held = false ∧ s.host.args[0].toNat % 256 = (0 : SlotNo).val ∧
    s.slots[(0 : SlotNo)] = some (job .read 64 0 [] .prepared) ∧ s.stations[(2 : StationNo)].state ≠ .offline := by
  decide +kernel

theorem witness_AbortBySlotState :
    ready.host.held = false ∧ ready.host.args[0].toNat % 256 = (0 : SlotNo).val ∧
    ∀ st ∈ [SlotState.queued, .parkedStation 0 1, .parkedPool 0, .recalled 0 .pool, .connected 0 0 none],
      (put ready 0 (job .read 64 0 [] st)).slots[(0 : SlotNo)] = some (job .read 64 0 [] st) := by decide +kernel

theorem witness_ReleaseFreesSlot :
    ready.host.held = false ∧ ready.host.args[0].toNat % 256 = (0 : SlotNo).val ∧
    ∀ st ∈ [SlotState.prepared, .done .ok (some 0) false []],
      (put ready 0 (job .read 64 0 [] st)).slots[(0 : SlotNo)] = some (job .read 64 0 [] st) ∧
      (st = .prepared ∨ (st.isDone = true ∧ st.isUnread = false)) := by decide +kernel

theorem witness_StationOnAndConfig :
    let s := arg (arg (arg (arg offline 0 3) 1 8) 2 4) 3 1
    (s.host.held = false ∧ s.host.args[0].toNat % 256 = (2 : StationNo).val + 1 ∧ s.stations[(2 : StationNo)].state = .offline ∧
      1 ≤ s.host.args[1].toNat ∧ s.host.args[1].toNat ≤ 8 ∧ 1 ≤ s.host.args[2].toNat ∧ s.host.args[2].toNat ≤ 4 ∧
      1 ≤ s.host.args[3].toNat) ∧
    16 ≤ (arg ready 0 16).host.args[0].toNat % 256 ∧ ready.stations[(2 : StationNo)].state ≠ .offline ∧
    ¬ 1 ≤ (arg ready 0 3).host.args[1].toNat := by decide +kernel

theorem witness_StationOffEndsItsSlots :
    (arg ready 0 3).host.held = false ∧ (arg ready 0 3).host.args[0].toNat % 256 = (2 : StationNo).val + 1 ∧
    (arg ready 0 3).stations[(2 : StationNo)].state ≠ .offline ∧ offline.stations[(2 : StationNo)].state = .offline := by
  decide +kernel

theorem witness_PollNowSetsRequest : ready.host.held = false := rfl

theorem witness_LinkResetBegins :
    (State.reset.host.held = false ∧ State.reset.link.op = .resetBreak) ∧
    (ready.host.held = false ∧ ready.link.op ≠ .resetBreak ∧ ready.link.op ≠ .resetQuiet) := by decide +kernel

theorem witness_SoftResetValues : ready.host.held = false := rfl

theorem witness_LinkResetRunsToReady :
    State.reset.host.held = false ∧ State.reset.link.op = .resetBreak ∧
    (after .linkResetBreakEnd State.reset).link.op = .resetQuiet := by decide +kernel

/-! ### Witnesses: time -/

/-- Two slots parked for STATION, both with deadline 1, and a third with deadline 2. -/
def parked : State :=
  let s := put (put (put ready 0 (job .read 64 0 [] (.parkedStation 0 1))) 1 (job .read 64 0 [] (.parkedStation 1 1))) 2
    (job .read 64 0 [] (.parkedStation 2 2))
  { s with park := { timebase := 0, deadlines := [0, 1, 2] } }

theorem witness_TimersCountAndExpire :
    (ready.host.held = false ∧ ready.park.deadlines = [] ∧ 2 ≤ ready.arb.pollTimer) ∧
    ({ ready with arb := { ready.arb with pollTimer := 1 } }.arb.pollTimer ≤ 1) ∧
    ({ parked with park := { parked.park with timebase := 1 } }.park.deadlines = 0 :: [1, 2] ∧
      parked.slots[(0 : SlotNo)] = some (job .read 64 0 [] (.parkedStation 0 1))) := by decide +kernel

/-- The same with LINK_ENABLE set and a poll interval timer. -/
def parkedIdle (timer : Nat) : State :=
  { parked with host := { parked.host with linkEnable := true }, arb := { parked.arb with pollTimer := timer } }

theorem witness_ReachedDeadlinesExpireInOrder :
    (parked.host.held = false ∧ parked.arbiterRests ∧ parked.listsFit ∧ parked.park.deadlines = [0, 1] ++ [2] ∧
      parked.slots[(0 : SlotNo)] = some (job .read 64 0 [] (.parkedStation 0 (parked.park.timebase + 1))) ∧
      parked.slots[(1 : SlotNo)] = some (job .read 64 0 [] (.parkedStation 1 (parked.park.timebase + 1))) ∧
      parked.slots[(2 : SlotNo)] = some (job .read 64 0 [] (.parkedStation 2 2)) ∧
      (2 : BitVec 32) ≠ parked.park.timebase + 1 ∧ 2 ≤ parked.arb.pollTimer) ∧
    ∀ timer ∈ [1, 2], (parkedIdle timer).listsFit ∧ (parkedIdle timer).link.op = .idle ∧
      (parkedIdle timer).host.linkEnable = true ∧ (parkedIdle timer).arb.abortList = [] ∧
      (parkedIdle timer).slots = parked.slots ∧ (parkedIdle timer).park = parked.park :=
  ⟨by decide +kernel, by decide +kernel⟩

theorem witness_OpeningTimeoutResendsOrEnds :
    ((waiting .read .opening 2 none).awaitsStation (conn .opening) (job .read 300 0 [] (.connected 0 2 none)) 0 2 none ∧
      (waiting .read .opening 2 none).link.replyTimer = some 64 ∧ 2 < (conn .opening).retryLimit) ∧
    ((waiting .read .opening 3 none).awaitsStation (conn .opening) (job .read 300 0 [] (.connected 0 3 none)) 0 3 none ∧
      (conn .opening).retryLimit ≤ 3) := by decide +kernel

theorem witness_DataPhaseTimeoutRecoversOrAborts :
    let x := fun d => job .write 300 d [0, 1, 2, 3, 4] (.connected 0 0 none)
    ((waiting .read .closing 2 none).awaitsStation (conn .closing) (job .read 300 0 [] (.connected 0 2 none)) 0 2 none ∧
      (waiting .read .closing 2 none).link.replyTimer = some 64 ∧ 2 < (conn .closing).retryLimit) ∧
    ((writing 256 .awaiting).awaitsStation (conn .awaiting) (x 256) 0 0 none ∧ (conn .awaiting).stationCredit = some 3 ∧
      (x 256).inRange = true ∧ 0 < (conn .awaiting).retryLimit) ∧
    ((waiting .read .awaiting 2 none).awaitsStation (conn .awaiting) (job .read 300 0 [] (.connected 0 2 none)) 0 2 none) ∧
    ((waiting .write .awaiting 3 none).awaitsStation (conn .awaiting) (job .write 300 0 [] (.connected 0 3 none)) 0 3 none ∧
      (conn .awaiting).retryLimit ≤ 3) ∧
    (waiting .read .awaiting 0 (some .aborted)).awaitsStation (conn .awaiting)
      (job .read 300 0 [] (.connected 0 0 (some .aborted))) 0 0 (some .aborted) := by decide +kernel

theorem witness_UnansweredAbortRepeatsThenEnds :
    let s := waiting .read .abortSent 3 (some .aborted)
    (s.host.held = false ∧ s.link.replyTimer = some 64 ∧ s.link.sending = none ∧ s.link.op = .exchange (conn .abortSent) ∧
      s.slots[(0 : SlotNo)] = some (job .read 300 0 [] (.connected 0 3 (some .aborted))) ∧ (conn .abortSent).abortSent = true) ∧
    ((visiting 2).link.op = .abortVisit 0 3 ∧ (visiting 2).link.replyTimer = some 64 ∧
      (visiting 2).slots[(0 : SlotNo)] = some (job .read 300 0 [] (.aborting 0 .aborted (some 2)))) ∧
    ((cleaning (some 0)).link.op = .poll (cleaningWindow (some 0)) ∧ (cleaning none).link.op = .poll (cleaningWindow none) ∧
      (cleaning (some 0)).slots[(0 : SlotNo)] = some (job .read 300 0 [] (.aborting 0 .aborted (some 0))) ∧
      (cleaningWindow none).cleanup =
        { station := 2, tag := 0, slot := none } :: [{ station := 4, tag := 7, slot := none }] ∧
      ∀ d ∈ (cleaningWindow (some 0)).cleanup.tail, d.slot ≠ some 0) := by decide +kernel

theorem witness_ReplySlotTimeoutCountsMiss :
    let s := polling ready
    (s.host.held = false ∧ s.link.op = .poll listening ∧ s.link.turn = .replySlot 2 ∧ listening.left = 2 :: 3 :: [4]) ∧
    { listening with left := [2] }.left = [2] := by decide +kernel

/-! ### Witnesses: frames -/

theorem witness_BadFramesOnlyRecordFaults :
    let late := after .replyTimerExpiry (waiting .read .opening 0 none)
    (ready.host.held = false ∧ ready.hears false ∧ ready.hears true) ∧
    (late.host.held = false ∧ late.link.turn = .head ∧ late.hears true ∧ ¬ late.hears false) ∧
    (¬ (after (.ackReceived { body [] with withExpiry := true }) late).hears true ∧ ¬ State.reset.hears false) ∧
    (64 < (65 : Byte).toNat ∧ (List.replicate 66 (0 : Byte)).length = 66) ∧
    ([0, 0, 0].drop 1 ≠ checkBytes [0x93, 0, 1, 0]) ∧
    ((checkBytes [0xD3, 0, 0]).length = 2 ∧ 13 ≤ (0xD3 : Byte).toNat / 16) ∧
    ready.link.turn = .nobody ∧ (body []).payload.length ≤ 64 ∧ (polling ready).link.turn = .replySlot 2 ∧
    ((waiting .read .opening 0 none).hears false ∧
      (waiting .read .opening 0 none).concernedTag ≠ some ({ body [] with tag := 1 } : Received).tag) := by
  decide +kernel

theorem witness_AcceptStartsWriteBurst :
    let x (done : Nat) := job .write 300 done [0, 1, 2, 3, 4] (.connected 0 0 none)
    ∀ done ∈ [0, 256, 300],
      (writing done .opening).awaitsStation (conn .opening) (x done) 0 0 none ∧ (body [4]).fits (x done) 0 ∧
      (body [1]).fits (x done) 0 ∧ (x done).inRange = true ∧ 1 ≤ (1 : Byte).toNat ∧ (4 : Byte).toNat ≤ 4 := by
  decide +kernel

theorem witness_AcceptGrantsReadCredit :
    let s := waiting .read .opening 0 none
    (s.awaitsStation (conn .opening) (job .read 300 0 [] (.connected 0 0 none)) 0 0 none ∧
      (body [0]).fits (job .read 300 0 [] (.connected 0 0 none)) 0 ∧ s.stage.reserved = [] ∧
      1 ≤ min s.stations[(2 : StationNo)].creditMax (min (frames 300 - 0 / 64) s.stage.free.length)) ∧
    ({ s with stage := { s.stage with free := [] } }.awaitsStation (conn .opening)
      (job .read 300 0 [] (.connected 0 0 none)) 0 0 none ∧
      min s.stations[(2 : StationNo)].creditMax (min (frames 300 - 0 / 64) ([] : List Page).length) = 0) := by decide +kernel

theorem witness_RefuseRequeuesOrEnds :
    let x := { job .read 300 0 [] (.connected 0 0 none) with busyCount := 7 }
    ((waiting .read .opening 0 none).awaitsStation (conn .opening) (job .read 300 0 [] (.connected 0 0 none)) 0 0 none ∧
      (body [1]).fits (job .read 300 0 [] (.connected 0 0 none)) 0 ∧ (conn .opening).resumed = false ∧ 0 + 1 < 8) ∧
    ((exchanging x (conn .opening)).awaitsStation (conn .opening) x 0 0 none ∧ x.busyCount = 7) ∧
    ((exchanging x { conn .opening with resumed := true }).awaitsStation { conn .opening with resumed := true } x 0 0 none) ∧
    2 ≤ (2 : Byte).toNat ∧
    (waiting .read .closing 0 (some .aborted)).awaitsStation (conn .closing)
      (job .read 300 0 [] (.connected 0 0 (some .aborted))) 0 0 (some .aborted) := by decide +kernel

theorem witness_DeferParksForStation :
    let w := job .write 300 64 [0, 1, 2, 3, 4] (.connected 0 0 none)
    ((waiting .read .opening 0 none).awaitsStation (conn .opening) (job .read 300 0 [] (.connected 0 0 none)) 0 0 none ∧
      (body [BitVec.ofNat 8 0, BitVec.ofNat 8 (0 / 256)]).fits (job .read 300 0 [] (.connected 0 0 none)) 0) ∧
    ((waiting .read .awaiting 0 none).awaitsStation (conn .awaiting) (job .read 300 0 [] (.connected 0 0 none)) 0 0 none ∧
      (conn .awaiting).dataEnded = false) ∧
    ((writing 64 .awaiting).awaitsStation (conn .awaiting) w 0 0 none ∧
      256 ≤ min w.count (w.doneCount + 64 * (conn .awaiting).burst) ∧ 256 % 64 = 0) := by decide +kernel

theorem witness_CloseEndsTheSlot :
    let x := job .control 8 0 [] (.connected 0 0 (some .aborted))
    let y := job .read 300 0 [] (.aborting 0 .aborted (some 0))
    let f := body (0 :: List.replicate 8 1)
    let s := exchanging x (conn .opening)
    (s.host.held = false ∧ s.link.op = .exchange (conn .opening) ∧ s.link.turn = .station x.station ∧ s.link.sending = none ∧
      s.slots[(0 : SlotNo)] = some x ∧ f.fits x 0 ∧ (conn .opening).abortSent = false ∧ (List.replicate 8 1).length ≤ 8) ∧
    (conn .abortSent).abortSent = true ∧
    ((visiting 0).link.op = .abortVisit 0 3 ∧ (visiting 0).link.turn = .station y.station ∧
      (visiting 0).slots[(0 : SlotNo)] = some y ∧ f.fits y 0 ∧ (body []).fits y 0) ∧
    ((cleaning (some 0)).cleanupAwaits (cleaningWindow (some 0)) { station := 2, tag := 0, slot := some 0 }
        [{ station := 4, tag := 7, slot := none }] ∧
      (cleaning none).cleanupAwaits (cleaningWindow none) { station := 2, tag := 0, slot := none }
        [{ station := 4, tag := 7, slot := none }] ∧
      (cleaning (some 0)).slots[(0 : SlotNo)] = some y ∧ (body []).address = addressOf 2 ∧ (body []).payload = [] ∧
      f.address = addressOf 2 ∧ f.payload.length ≤ 64) := by decide +kernel

theorem witness_AckAcknowledgesFrames :
    let x := fun d => job .write 300 d [0, 1, 2, 3, 4] (.connected 0 0 none)
    let f := fun (q : Seq) (b : Byte) => ({ body [b] with seq := q } : Received)
    ((writing 128 .awaiting).awaitsStation (conn .awaiting) (x 128) 0 0 none ∧ (f 3 4).fits (x 128) 0 ∧
      (x 128).inRange = true ∧ 3 = ((f 3 4).seq - (conn .awaiting).oldest).toNat ∧ 3 ≤ (conn .awaiting).burst ∧
      min 300 (128 + 64 * 3) = 300) ∧
    ((writing 0 .awaiting).awaitsStation (conn .awaiting) (x 0) 0 0 none ∧ (f 0 4).fits (x 0) 0 ∧
      0 = ((f 0 4).seq - (conn .awaiting).oldest).toNat ∧ min 300 (0 + 64 * 0) < 300 ∧ 0 < (conn .awaiting).retryLimit) ∧
    (exchanging (x 0) { conn .awaiting with retryLimit := 0 }).awaitsStation { conn .awaiting with retryLimit := 0 } (x 0) 0 0
      none ∧ 4 < (5 : Byte).toNat ∧ (conn .awaiting).burst < ((f 4 4).seq - (conn .awaiting).oldest).toNat := by decide +kernel

theorem witness_DataFillsReservedPages :
    let x := job .read 300 0 [] (.connected 0 0 none)
    let s := { waiting .read .awaiting 0 none with stage := { ready.stage with reserved := [0], free := [1] } }
    let f := fun (l : Bool) (p : List Byte) => ({ body p with last := l } : Received)
    (s.awaitsStation (conn .awaiting) x 0 0 none ∧ (f false (List.replicate 64 1)).fits x 0 ∧ s.stage.reserved = 0 :: [] ∧
      Memory.wf s.stage.mem ∧ (f false (List.replicate 64 1)).seq = (conn .awaiting).nextExpected ∧
      (conn .awaiting).discarding = false ∧ (conn .awaiting).dataEnded = false ∧ 0 + 64 ≤ x.count ∧
      (conn .awaiting).progress ≤ x.doneCount) ∧
    (({ body [1] with seq := 1 } : Received).seq ≠ (conn .awaiting).nextExpected ∧
      x.doneCount = (conn .awaiting).progress ∧ 0 < (conn .awaiting).retryLimit) ∧
    ((exchanging x { conn .awaiting with retryLimit := 0 }).awaitsStation { conn .awaiting with retryLimit := 0 } x 0 0 none) ∧
    ((f true [1]).fits x 0 ∧ (f true [1]).last = true ∧ 1 ≤ (f true [1]).payload.length ∧ 0 + 1 ≤ x.count) := by decide +kernel

theorem witness_ProtocolErrorsCondemn :
    let x := job .read 300 0 [] (.connected 0 0 none)
    let s := waiting .read .awaiting 0 none
    let other : Received := { body [1] with tag := 7 }
    (s.awaitsStation (conn .awaiting) x 0 0 none ∧ s.stage.reserved = []) ∧
    (∀ f ∈ [body [1], body []], ∀ i ∈ [Instr.acceptReceived f, .refuseReceived f, .deferReceived f, .closeReceived f,
      .ackReceived f, .dataReceived f, .replyReceived f, .headOnlyKindReceived .poll f], f.fitsFor i 2 0) ∧
    other.fitsFor (.replyReceived other) 2 0 ∧
    isProtocolError (conn .awaiting) x [] (.acceptReceived (body [1])) ∧
    isProtocolError (conn .awaiting) x [] (.refuseReceived (body [1])) ∧
    isProtocolError (conn .awaiting) x [] (.deferReceived (body [1])) ∧
    isProtocolError (conn .awaiting) x [] (.closeReceived (body [])) ∧
    isProtocolError (conn .awaiting) x [] (.ackReceived (body [1])) ∧
    isProtocolError (conn .awaiting) x [] (.dataReceived (body [1])) ∧
    isProtocolError (conn .awaiting) x [] (.replyReceived (body [1])) ∧
    isProtocolError (conn .awaiting) x [] (.headOnlyKindReceived .poll (body [1])) :=
  ⟨by decide +kernel, by decide +kernel, by decide +kernel, .inl (by decide), .inl (by decide), .inl (by decide), .inl rfl, .inr (.inl (by decide)),
    .inr (.inr ⟨rfl, rfl, .inr (.inl (by decide))⟩), trivial, trivial⟩

theorem witness_FramesThatCountForTheTurnOnly :
    let s := waiting .read .opening 0 (some .aborted)
    let u := waiting .read .abortSent 2 (some .protocol)
    let x := job .read 300 0 [] (.connected 0 0 (some .aborted))
    (s.host.held = false ∧ s.link.op = .exchange (conn .opening) ∧ s.link.turn = .station 2 ∧ s.link.sending = none ∧
      s.slots[(0 : SlotNo)] = some x ∧ (body []).fitsFor (.refuseReceived (body [])) 2 0 ∧ (conn .opening).abortSent = false ∧
      (body []).payload.length ≠ 1 ∧ (body []).turn = false ∧ (body []).last = false) ∧
    (u.link.op = .exchange (conn .abortSent) ∧ (conn .abortSent).abortSent = true ∧ 2 < (conn .abortSent).retryLimit ∧
      u.slots[(0 : SlotNo)] = some (job .read 300 0 [] (.connected 0 2 (some .protocol)))) ∧
    ((visiting 3).link.op = .abortVisit 0 3 ∧ (visiting 3).link.turn = .station 2 ∧
      (visiting 3).slots[(0 : SlotNo)] = some (job .read 300 0 [] (.aborting 0 .aborted (some 3)))) ∧
    ((cleaning (some 0)).cleanupAwaits (cleaningWindow (some 0)) { station := 2, tag := 0, slot := some 0 }
        [{ station := 4, tag := 7, slot := none }] ∧
      (cleaning none).cleanupAwaits (cleaningWindow none) { station := 2, tag := 0, slot := none }
        [{ station := 4, tag := 7, slot := none }] ∧
      (cleaning (some 0)).slots[(0 : SlotNo)] = some (job .read 300 0 [] (.aborting 0 .aborted (some 0)))) := by
  decide +kernel

/-- The poll window in its last reply slot, that of station 3, with the cleanup entries given. -/
def lastSlot (entries : List CleanupEntry) : PollWindow := { listening with left := [2], cleanup := entries }

/-- A state in that poll window. -/
def atLastSlot (s : State) (entries : List CleanupEntry) : State :=
  { polling s with link := { (polling s).link with op := .poll (lastSlot entries) } }

theorem witness_ReplyPassesAttentionOn :
    ((polling ready).slotOpenFor listening 2 [3, 4] ∧ (atLastSlot ready []).slotOpenFor (lastSlot []) 2 [] ∧
      (atLastSlot ready [⟨4, 7, none⟩]).slotOpenFor (lastSlot [⟨4, 7, none⟩]) 2 [] ∧
      (body [0]).address = addressOf 2) ∧
    ((0 : Byte).getLsbD 0 = false ∧ (2 : Byte).getLsbD 0 = false) ∧
    attentionIs 0 [] none ∧ attentionIs 2 [9] (some 9) ∧
    ([9].length ≠ (if (0 : Byte).getLsbD 0 then 3 else 0) + (if (0 : Byte).getLsbD 1 then 1 else 0) ∧
      ([] : List Byte).length ≠ (if (1 : Byte).getLsbD 0 then 3 else 0) + (if (1 : Byte).getLsbD 1 then 1 else 0)) :=
  ⟨by decide +kernel, by decide, .inl ⟨by decide, rfl, rfl⟩, .inr ⟨by decide, 9, rfl, rfl⟩, by decide⟩

/-- Slot 0 of station 3 in a state that holds tag 7, in the poll window. -/
def recallable (st : SlotState) : State :=
  let s := put ready 0 (job .read 300 0 [] st)
  polling { s with stations := s.stations.set 2 { Station.atReset with tagMap := Station.atReset.tagMap.set 7 (some 0) } }

theorem witness_RecallIsJudged :
    ((polling ready).slotOpenFor listening 2 [3, 4] ∧ (body [1, 7, 0, 0]).address = addressOf 2 ∧
      (1 : Byte).getLsbD 0 = true ∧ (3 : Byte).getLsbD 0 = true ∧ (7 : Byte).toNat = (7 : Tag).val ∧
      8 ≤ (8 : Byte).toNat ∧ 8 ≤ (255 : Byte).toNat ∧ (polling ready).stations[(2 : StationNo)].tagMap[(7 : Tag)] = none) ∧
    (attentionIs 1 [] none ∧ attentionIs 3 [9] (some 9)) ∧
    (∀ st ∈ [SlotState.parkedStation 7 5, .parkedPool 7, .aborting 7 .aborted none],
      (recallable st).slotOpenFor listening 2 [3, 4] ∧
      (recallable st).stations[(2 : StationNo)].tagMap[(7 : Tag)] = some 0 ∧
      (recallable st).slots[(0 : SlotNo)] = some (job .read 300 0 [] st) ∧ (recallable st).stage.free ≠ []) :=
  ⟨by decide +kernel, ⟨.inl ⟨by decide, rfl, rfl⟩, .inr ⟨by decide, 9, rfl, rfl⟩⟩, by decide +kernel⟩

/-- The head sends a frame of a kind to station 3. -/
def sending (s : State) (op : LinkOp) (k : FrameKind) : State := { s with link := sendingLink op { kind := k, body := (body []).toFrameBody } }

theorem witness_SentFramesPassTheTurnOrEnd :
    (∀ k ∈ [FrameKind.call, .resume, .ack, .abort],
      (sending ready (.exchange (conn .opening)) k).host.held = false ∧
      (sending ready (.exchange (conn .opening)) k).link.sending = some { kind := k, body := (body []).toFrameBody } ∧
      (body []).address = addressOf 2) ∧
    ((sending ready .parking .parked).link.op = .parking ∧
      (sending ready .parking .parked).link.sending = some { kind := .parked, body := (body []).toFrameBody }) ∧
    ((sending ready (.poll listening) .poll).link.op = .poll listening ∧ listening.mask = 2 :: [3, 4]) := by decide +kernel

theorem witness_DataFrameSentGoesOn :
    let s := sending (writing 0 .sending) (.exchange (conn .sending)) .data
    let x := job .write 300 0 [0, 1, 2, 3, 4] (.connected 0 0 none)
    (s.host.held = false ∧ s.link.op = .exchange (conn .sending) ∧ s.slots[(0 : SlotNo)] = some x ∧
      s.link.sending = some { kind := .data, body := (body []).toFrameBody } ∧ (body []).address = addressOf 2 ∧ (body []).turn = false ∧
      x.inRange = true ∧ x.doneCount / 64 + ((body []).seq + 1 - (conn .sending).oldest).toNat < frames x.count) ∧
    ({ body [] with turn := true } : Received).turn = true := by decide +kernel

/-! ### Witnesses: the arbiter -/

/-- Slot 0 in a state, in the lists given, with the arbiter free to choose. -/
def candidate (st : SlotState) (g : Arbiter) : State := { put enabled 0 (job .read 300 0 [] st) with arb := g }

/-- Slot 0 waits in each of the Arbiter's lists in turn, and then a poll is due. -/
def visitDue : State := candidate (.aborting 0 .aborted none) { Arbiter.atReset with abortList := [0] }
def recallDue : State := candidate (.recalled 0 .pool) { Arbiter.atReset with recallList := [0] }
def poolDue : State := candidate (.parkedPool 0) { Arbiter.atReset with poolList := [0] }
def pollDue : State := candidate .prepared { Arbiter.atReset with pollDue := true, pollRequested := true }

theorem witness_ChoiceRanksCandidates :
    (visitDue.link.op = .idle ∧ visitDue.host.linkEnable = true ∧ visitDue.listsFit ∧ visitDue.arb.abortList = 0 :: []) ∧
    (recallDue.listsFit ∧ recallDue.arb.abortList = [] ∧ recallDue.arb.recallList = 0 :: []) ∧
    (poolDue.listsFit ∧ poolDue.arb.recallList = [] ∧ poolDue.arb.poolList = 0 :: [] ∧ poolDue.stage.free ≠ []) ∧
    (pollDue.link.op = .idle ∧ pollDue.host.linkEnable = true ∧ pollDue.arb.abortList = [] ∧
      pollDue.arb.recallList = [] ∧ pollDue.arb.poolList = [] ∧ pollDue.pollCalledFor) :=
  ⟨by decide +kernel, by decide +kernel, by decide +kernel, by decide +kernel⟩

/-- A QUEUED slot of priority 1 and one of priority 0, of two stations, with a fairness counter. -/
def twoQueued (fairness : Nat) : State :=
  let s := put (put enabled 0 { job .read 64 0 [] .queued with urgent := true }) 1 { job .read 64 0 [] .queued with station := 3 }
  { s with arb := { Arbiter.atReset with level1 := [0], level0 := [1], fairness := fairness } }

/-- The same with poll-due set and no reason for a poll. -/
def pollUncalled : State := { twoQueued 0 with arb := { (twoQueued 0).arb with pollDue := true } }

/-- A pool-waiter and no page free. -/
def poolEmpty : State := { poolDue with stage := { poolDue.stage with free := [] } }

theorem witness_IssuePickIsFair :
    (∀ k ∈ [3, 4], (twoQueued k).link.op = .idle ∧ (twoQueued k).host.linkEnable = true ∧ (twoQueued k).listsFit) ∧
    (∀ k ∈ [3, 4], (twoQueued k).onlyIssuePicks) ∧
    (∀ k ∈ [3, 4],
      (twoQueued k).slots[(0 : SlotNo)] = some { job .read 64 0 [] .queued with urgent := true } ∧
      (twoQueued k).stations[(2 : StationNo)].tagMap[(0 : Tag)] = none ∧
      (twoQueued k).arb.level1.find? (twoQueued k).mayBeCalled = some 0 ∧
      (twoQueued k).arb.level0.find? (twoQueued k).mayBeCalled = some 1) ∧
    pollUncalled.onlyIssuePicks ∧
    (poolEmpty.onlyIssuePicks ∧ poolEmpty.link.op = .idle ∧ poolEmpty.arb.level1 = [] ∧ poolEmpty.arb.level0 = []) :=
  ⟨by decide +kernel, by decide +kernel, by decide +kernel, by decide +kernel, by decide +kernel⟩

/-! ### Witnesses: what every step keeps -/

/-- A state that has every invariant, and in which a READ is on the link with a page reserved. -/
def busy : State :=
  let s := waiting .read .awaiting 0 none
  { s with
    stage := { s.stage with free := s.stage.free.drop 1, reserved := [0] }
    stations := s.stations.set 2 { Station.atReset with tagMap := Station.atReset.tagMap.set 0 (some 0) }
    events := { records := [{ completion with source := .link, kind := .ready }], snapshot := none }
    pending := [.timebaseAdvance] }

theorem witness_RegistersStayInRange : busy.registersInRange ∧ Memory.wf busy.stage.mem := by decide +kernel
theorem witness_SlotRecordsStayInRange : busy.slotsInRange := by decide +kernel
theorem witness_PagesAreConserved : busy.pagesConserved := by decide +kernel
theorem witness_ReservationsBelongToTheAwaitingRead :
    busy.reservationsFit ∧ ∀ a : StationNo, busy.stations[a].inRange := by decide +kernel
theorem witness_OneRecordPerSource : busy.eventsFit := by decide +kernel
theorem witness_SlotsListsTagsAndLinkAgree : busy.consistent :=
  ⟨by decide +kernel, by decide +kernel, by decide +kernel, fun _ h => (by cases h), by decide +kernel⟩

/-- Two slots parked for STATION that hold their tags, the deadlines at both ends of their range. -/
def parkedApart : State :=
  let s := put (put ready 0 (job .read 300 0 [] (.parkedStation 0 1))) 1 (job .read 300 0 [] (.parkedStation 1 65535))
  { s with
    stations := s.stations.set 2 { Station.atReset with tagMap := (Station.atReset.tagMap.set 0 (some 0)).set 1 (some 1) }
    park := { timebase := 0, deadlines := [0, 1] } }

theorem witness_DeadlinesStandInOrder :
    parkedApart.deadlinesFit ∧ parkedApart.consistent ∧ ∀ a : StationNo, parkedApart.stations[a].inRange :=
  ⟨by decide +kernel, ⟨by decide +kernel, by decide +kernel, by decide +kernel, fun _ h => (by cases h), by decide +kernel⟩,
    by decide +kernel⟩

theorem witness_IssuedDataStaysFrozen :
    busy.pagesConserved ∧ Sys2Proof.Machine.step busy = .next (after .timebaseAdvance { busy with pending := [] }) ∧
    busy.slots[(0 : SlotNo)] = some (job .read 300 0 [] (.connected 0 0 none)) ∧
    (after .timebaseAdvance { busy with pending := [] }).slots[(0 : SlotNo)] =
      some (job .read 300 0 [] (.connected 0 0 none)) := by
  refine ⟨by decide +kernel, rfl, by decide +kernel, by decide +kernel⟩

theorem witness_FrameBytesReadBack :
    ({ kind := .data, body := (body (List.replicate 64 0)).toFrameBody } : Frame).body.payload.length ≤ 64 := by decide

end Sys2Proof.Tests
end

section
/-!
PROOF. EVENT_POP (section 9.3): the STATUS event count and the interrupt line as functions of the queued records, what
the pop clears at the source of the record, and the statement about the pop assembled from them.
-/

namespace Sys2Proof.Machine

variable (s : State)

/-! ### The STATUS event count (R172) -/

theorem LinkOp.code_le (op : LinkOp) : op.code ≤ 4 := by
  cases op <;> simp [LinkOp.code]

theorem bit_le (b : Bool) : bit b ≤ 1 := by
  cases b <;> simp [bit]

theorem State.readRegister_status (h : s.host.held = false) : s.readRegister 0x05 = s.statusWord 0 := by
  simp [State.readRegister, h]

/-- The count has 12 bits, above the operation code and the HOST_FAULT mark. -/
theorem State.statusWord_eventCount (h : s.events.records.length ≤ 4095) :
    (s.statusWord 0).toNat / 16 = s.events.records.length := by
  have hop := s.link.op.code_le
  have hfault := bit_le s.host.hostFault.isSome
  simp only [State.statusWord, BitVec.toNat_ofNat]
  omega

/-! ### The interrupt line (R166) -/

theorem State.hasSlotRecord_iff :
    s.hasSlotRecord = true ↔ ∃ q ∈ s.events.records, ∃ n, q.source = .slot n := by
  simp only [State.hasSlotRecord, List.any_eq_true]
  refine exists_congr fun q => and_congr_right fun _ => ?_
  cases q.source <;> simp

theorem State.hasStationRecord_iff :
    s.hasStationRecord = true ↔ ∃ q ∈ s.events.records, ∃ a, q.source = .station a := by
  simp only [State.hasStationRecord, List.any_eq_true]
  refine exists_congr fun q => and_congr_right fun _ => ?_
  cases q.source <;> simp

theorem State.hasLinkRecord_iff : s.hasLinkRecord = true ↔ ∃ q ∈ s.events.records, q.source = .link := by
  simp only [State.hasLinkRecord, List.any_eq_true]
  refine exists_congr fun q => and_congr_right fun _ => ?_
  cases q.source <;> simp

/-- The line of a part out of reset stands while an enabled class has a record, or HOST_FAULT its enable. -/
theorem State.interruptAsserted_iff (h : s.host.held = false) :
    s.interruptAsserted = true ↔
      (s.host.intSlot = true ∧ ∃ q ∈ s.events.records, ∃ n, q.source = .slot n) ∨
      (s.host.intStation = true ∧ ∃ q ∈ s.events.records, ∃ a, q.source = .station a) ∨
      (s.host.intLink = true ∧ ∃ q ∈ s.events.records, q.source = .link) ∨
      (s.host.intHostFault = true ∧ s.host.hostFault ≠ none) := by
  rw [← State.hasSlotRecord_iff, ← State.hasStationRecord_iff, ← State.hasLinkRecord_iff, ← Option.isSome_iff_ne_none]
  simp only [State.interruptAsserted, h, Bool.not_false, Bool.true_and, Bool.or_eq_true, Bool.and_eq_true, or_assoc,
    and_comm]

/-! ### What the pop clears at the source (R164) -/

theorem Exchange.seen_of_done (x : Exchange) {f : FinalStatus} {st : Option Byte} {u : Bool} {result : List Byte}
    (h : x.st = .done f st u result) : x.seen = { x with st := .done f st false result } := by
  simp [Exchange.seen, h]

@[simp] theorem State.clearSource_slot (n : SlotNo) :
    s.clearSource (.slot n) = s.setSlot n (s.slots[n].map Exchange.seen) := rfl

@[simp] theorem State.clearSource_station (a : StationNo) :
    s.clearSource (.station a) = s.withStation a fun st => { st with attention := false } := rfl

@[simp] theorem State.clearSource_link : s.clearSource .link = s := rfl

/-- Whatever the source, the slot records and the station records are all that is touched. -/
theorem State.clearSource_frame (src : Source) :
    s.clearSource src =
      { s with slots := (s.clearSource src).slots, stations := (s.clearSource src).stations } := by
  cases src <;> rfl

@[simp] theorem State.clearSource_host (src : Source) : (s.clearSource src).host = s.host := by
  rw [State.clearSource_frame]

@[simp] theorem State.clearSource_events (src : Source) : (s.clearSource src).events = s.events := by
  rw [State.clearSource_frame]

/-! ### EVENT_POP (R164) -/

theorem exec_eventPop (w : Word) (h : s.host.held = false) : exec (.eventPop w) s = .next s.eventPop :=
  congrArg Host.Outcome.next (s.taken_of_running State.eventPop h)

/-- The queue after a pop: without its head record, and the snapshot discarded. -/
def State.popped (rest : List EventRecord) : State := s.withEvents fun _ => { records := rest, snapshot := none }

@[simp] theorem State.popped_host (rest : List EventRecord) : (s.popped rest).host = s.host := rfl

@[simp] theorem State.popped_events (rest : List EventRecord) :
    (s.popped rest).events = { records := rest, snapshot := none } := rfl

theorem State.eventPop_of_empty (h : s.events.records = []) : s.eventPop = s.popped [] := by
  simp [State.eventPop, State.popped, State.withEvents, h]

theorem State.eventPop_of_cons {r : EventRecord} {rest : List EventRecord} (h : s.events.records = r :: rest) :
    s.eventPop = (s.popped rest).clearSource r.source := by
  simp [State.eventPop, State.popped, h]

@[simp] theorem State.eventPop_host : s.eventPop.host = s.host := by
  cases h : s.events.records with
  | nil => rw [State.eventPop_of_empty s h]; rfl
  | cons r rest => rw [State.eventPop_of_cons s h, State.clearSource_host, State.popped_host]

section Cons

variable {s} {r : EventRecord} {rest : List EventRecord} (h : s.events.records = r :: rest)
include h

theorem State.eventPop_events : s.eventPop.events = { records := rest, snapshot := none } := by
  rw [State.eventPop_of_cons s h, State.clearSource_events, State.popped_events]

theorem State.eventPop_frame :
    s.eventPop = { s with
      events := { records := rest, snapshot := none }
      slots := s.eventPop.slots
      stations := s.eventPop.stations } := by
  rw [State.eventPop_of_cons s h, State.clearSource_frame]; rfl

/-- With one record per source, the pending mark of the popped record's source is clear. -/
theorem State.eventPop_source_absent (hnodup : (s.events.records.map EventRecord.source).Nodup) :
    ∀ q ∈ s.eventPop.events.records, q.source ≠ r.source := by
  rw [h, List.map_cons, List.nodup_cons] at hnodup
  obtain ⟨habsent, -⟩ := hnodup
  rw [State.eventPop_events h]
  exact fun q hq hsame => habsent (hsame ▸ List.mem_map_of_mem hq)

theorem State.eventPop_eventCount (hheld : s.host.held = false) (hlen : rest.length < 4095) :
    (s.eventPop.readRegister 0x05).toNat / 16 + 1 = (s.readRegister 0x05).toNat / 16 := by
  have hbefore : s.events.records.length = rest.length + 1 := by rw [h, List.length_cons]
  have hafter : s.eventPop.events.records.length = rest.length := by rw [State.eventPop_events h]
  rw [State.readRegister_status _ hheld, State.readRegister_status _ (s.eventPop_host ▸ hheld),
    State.statusWord_eventCount _ (by omega), State.statusWord_eventCount _ (by omega), hbefore, hafter]

theorem State.eventPop_of_slot {n : SlotNo} (hsrc : r.source = .slot n) :
    s.eventPop = (s.popped rest).setSlot n (s.slots[n].map Exchange.seen) := by
  rw [State.eventPop_of_cons s h, hsrc]; rfl

theorem State.eventPop_of_station {a : StationNo} (hsrc : r.source = .station a) :
    s.eventPop = (s.popped rest).withStation a fun st => { st with attention := false } := by
  rw [State.eventPop_of_cons s h, hsrc]; rfl

theorem State.eventPop_of_link (hsrc : r.source = .link) : s.eventPop = s.popped rest := by
  rw [State.eventPop_of_cons s h, hsrc]; rfl

end Cons

/-- Settles O14, from the frame of the pop and its effect for each class of source. -/
theorem eventPopRemovesHead : Obligations.EventPopRemovesHead := by
  intro w s hheld
  have hexec := exec_eventPop s w hheld
  refine ⟨fun hempty => by rw [hexec, State.eventPop_of_empty s hempty]; rfl, fun r rest h =>
    ⟨s.eventPop, hexec, State.eventPop_frame h, State.eventPop_source_absent h, State.eventPop_eventCount h hheld,
      ?line, ?slot, ?station, ?link⟩⟩
  case line =>
    have hline := s.eventPop.interruptAsserted_iff (s.eventPop_host ▸ hheld)
    rwa [State.eventPop_host, State.eventPop_events h] at hline
  case slot =>
    intro n hsrc
    rw [State.eventPop_of_slot h hsrc]
    refine ⟨rfl, fun m hm => ?_, fun x f st u result hx hdone => ?_⟩
    · exact Vector.getElem_set_ne n.isLt m.isLt fun hsame => hm (Fin.ext hsame.symm)
    · rw [hx, Option.map_some, x.seen_of_done hdone]; rfl
  case station =>
    intro a hsrc
    rw [State.eventPop_of_station h hsrc]
    exact ⟨rfl, rfl⟩
  case link =>
    intro hsrc
    rw [State.eventPop_of_link h hsrc]
    exact ⟨rfl, rfl⟩

end Sys2Proof.Machine
end

section
/-!
PROOF. The machine as a whole, and the writes of the register window: each command is its operation while the part
runs, and the operations are the states that the statements write out.
-/
set_option Elab.async false

namespace Sys2Proof.Machine

/-! ### The machine as a whole -/

/-- Settles O1: both clauses are the two equations of `step`. -/
theorem stepTakesFrontCommand : Obligations.StepTakesFrontCommand :=
  ⟨fun _ _ _ => rfl, fun _ => rfl⟩

/-- Settles O2: every row of the dispatch answers a next state. -/
theorem everyCommandAnswersNext : Obligations.EveryCommandAnswersNext := by
  intro c s
  cases c <;> exact ⟨_, rfl⟩

/-- Settles O3: the two resets act, the five reads return 0, and every other row takes nothing. -/
theorem heldPartTakesNothing : Obligations.HeldPartTakesNothing := by
  intro c s h
  have hread (f : State → Word × State) :
      Host.Outcome.next (ρ := Refusal) (φ := Fault) (s.hostRead f) =
        .next { s with host := { s.host with readData := 0 } } := congrArg _ (s.hostRead_of_held f h)
  cases c with
  | resetAssert => exact .inl (.inl rfl)
  | resetRelease strap => exact .inl (.inr ⟨strap, rfl⟩)
  | stageDataRead => exact .inr (.inl ⟨by simp, hread _⟩)
  | event0Read => exact .inr (.inl ⟨by simp, hread _⟩)
  | slotView0Read => exact .inr (.inl ⟨by simp, hread _⟩)
  | stationView0Read => exact .inr (.inl ⟨by simp, hread _⟩)
  | timebaseLoRead => exact .inr (.inl ⟨by simp, hread _⟩)
  | _ => exact .inr (.inr ⟨by simp, congrArg _ (s.taken_of_held _ h)⟩)

/-- Settles O4: the values stand in `State.reset`. -/
theorem resetValues : Obligations.ResetValues := by
  unfold Obligations.ResetValues
  refine ⟨by decide, by decide +kernel, ⟨by simp only [State.reset, freeListAtReset], rfl⟩, by decide +kernel, by decide, rfl, rfl, rfl, by decide +kernel⟩

variable (s : State)

/-! ### Rows of a running part -/

/-- While RESET_N is released, a row that takes a host write or an event is its operation. -/
theorem next_taken (f : State → State) (h : s.host.held = false) :
    (.next (s.taken f) : Host.Outcome State Fault Refusal) = .next (f s) :=
  congrArg _ (s.taken_of_running f h)

/-- While RESET_N is released, a row that is a host read puts its word on the data pins. -/
theorem next_hostRead (f : State → Word × State) (h : s.host.held = false) :
    (.next (s.hostRead f) : Host.Outcome State Fault Refusal) =
      .next ((f s).2.withHost fun p => { p with readData := (f s).1 }) :=
  congrArg _ (s.hostRead_of_running f h)

/-! ### Fields of a window word -/

theorem extractLow (w : Word) : w.extractLsb' 0 8 = BitVec.ofNat 8 w.toNat := rfl

theorem extractHigh (w : Word) : w.extractLsb' 8 8 = BitVec.ofNat 8 (w.toNat / 256) := by
  rw [BitVec.extractLsb', Nat.shiftRight_eq_div_pow]

theorem lowByte_eq (w : Word) : lowByte w = BitVec.ofNat 8 w.toNat := rfl

theorem highByte_eq (w : Word) : highByte w = BitVec.ofNat 8 (w.toNat / 256) := extractHigh w

/-! ### CONTROL, LINK_CONFIG, INT_ENABLE and HOST_FAULT -/

theorem State.choose_of_rests (h : s.arbiterRests) : s.choose = s :=
  h.elim s.choose_of_disabled s.choose_of_busy

theorem State.controlWrite_eq (w : Word) :
    s.controlWrite w =
      if w.getLsbD 0 = s.host.linkEnable ∧ w.getLsbD 1 = s.host.pollAlways then s.setMarks w
      else (s.setMarks w).choose := by
  unfold State.controlWrite
  have hchange : s.marksChange w = true ↔ ¬ (w.getLsbD 0 = s.host.linkEnable ∧ w.getLsbD 1 = s.host.pollAlways) := by
    simp only [State.marksChange, Bool.or_eq_true, bne_iff_ne, ne_eq, not_and_or]
  by_cases hsame : w.getLsbD 0 = s.host.linkEnable ∧ w.getLsbD 1 = s.host.pollAlways
  · rw [if_neg (fun hc => hchange.mp hc hsame), if_pos hsame]
  · rw [if_pos (hchange.mpr hsame), if_neg hsame]

/-- Settles O5: both rows are the write of CONTROL, and a resting arbiter makes no choice. -/
theorem controlWriteSetsBothMarks : Obligations.ControlWriteSetsBothMarks := by
  intro w s hheld t answer
  have hexec : (.next (s.controlWrite w) : Host.Outcome State Fault Refusal) = .next answer :=
    congrArg _ (s.controlWrite_eq w)
  refine ⟨(next_taken s _ hheld).trans hexec, (next_taken s _ hheld).trans hexec, fun hrest => ?_⟩
  have hchoose : t.choose = t := t.choose_of_rests hrest
  simp only [answer, hchoose, ite_self]

theorem clampReplyTime_low (w : Word) :
    clampReplyTime (w.extractLsb' 0 8) = if w.toNat % 256 < 8 then 8 else BitVec.ofNat 8 w.toNat := by
  simp only [clampReplyTime, extractLow, BitVec.toNat_ofNat, Nat.reducePow]

theorem clampPollInterval_low (w : Word) :
    clampPollInterval (w.extractLsb' 0 8) = if w.toNat % 256 = 0 then 1 else BitVec.ofNat 8 w.toNat := by
  have hzero : BitVec.ofNat 8 w.toNat = 0 ↔ w.toNat % 256 = 0 := by
    rw [← BitVec.toNat_inj, BitVec.toNat_ofNat]; rfl
  simp only [clampPollInterval, extractLow, hzero]

/-- Settles O6, from the clamping of each field and the line as a function of the queue. -/
theorem linkConfigAndIntEnableWrites : Obligations.LinkConfigAndIntEnableWrites := by
  refine ⟨fun w s hheld => ⟨?first, ?second⟩, fun w s hheld => ⟨_, next_taken s _ hheld, rfl, ?line⟩⟩
  case first =>
    have hretry : w.extractLsb' 8 3 = BitVec.ofNat 3 (w.toNat / 256) := by
      rw [BitVec.extractLsb', Nat.shiftRight_eq_div_pow]
    rw [← clampReplyTime_low, ← hretry]
    exact next_taken s _ hheld
  case second =>
    rw [← clampPollInterval_low]
    exact next_taken s _ hheld
  case line =>
    exact (s.intEnableWrite w).interruptAsserted_iff hheld

theorem State.readRegister_hostFault (h : s.host.held = false) :
    s.readRegister 0x08 = hostFaultWord s.host.hostFault := by
  simp [State.readRegister, h]

/-- The HOST_FAULT mark is bit 3 of STATUS, above the operation code. -/
theorem State.statusWord_faultBit : (s.statusWord 0).getLsbD 3 = s.host.hostFault.isSome := by
  have hop := s.link.op.code_le
  have hbit : (s.statusWord 0).getLsbD 3 = ((s.statusWord 0).toNat / 8 % 2 == 1) := by
    rw [BitVec.getLsbD, Nat.testBit_eq_decide_div_mod_eq]; rfl
  rw [hbit]
  simp only [State.statusWord, BitVec.toNat_ofNat]
  cases s.host.hostFault.isSome <;> simp [bit] <;> omega

/-- Settles O7, from the words that HOST_FAULT and STATUS read. -/
theorem hostFaultShowsAndClears : Obligations.HostFaultShowsAndClears := by
  intro w s hheld
  have hstatus : (s.readRegister 0x05).getLsbD 3 = s.host.hostFault.isSome := by
    rw [s.readRegister_status hheld, s.statusWord_faultBit]
  rw [hstatus, s.readRegister_hostFault hheld]
  refine ⟨next_taken s _ hheld, fun hnone => ?_, fun cause n hsome hn => ?_⟩
  · rw [hnone]; exact ⟨rfl, rfl⟩
  · rw [hsome]
    simp only [hostFaultWord, BitVec.toNat_ofNat]
    cases cause <;> refine ⟨?_, ?_, rfl⟩ <;> simp only [StageFault.code] <;> omega

/-! ### The stage cursor (R133) -/

theorem evenBelow_eq (w : Word) : evenBelow w = (w >>> 1) <<< 1 := by
  refine BitVec.eq_of_getLsbD_eq fun i hi => ?_
  simp only [evenBelow, BitVec.getLsbD_and, BitVec.getLsbD_shiftLeft, BitVec.getLsbD_ushiftRight]
  interval_cases i <;> simp

theorem evenBelow_toNat (w : Word) : (evenBelow w).toNat = w.toNat / 2 * 2 := by
  have hw := w.isLt
  rw [evenBelow_eq, BitVec.toNat_shiftLeft, BitVec.toNat_ushiftRight, Nat.shiftRight_eq_div_pow, Nat.shiftLeft_eq]
  omega

theorem evenBelow_of_even (w : Word) (h : w.toNat % 2 = 0) : evenBelow w = w := by
  refine BitVec.eq_of_toNat_eq ?_
  rw [evenBelow_toNat]
  omega

theorem evenBelow_of_odd (w : Word) (h : w.toNat % 2 = 1) : evenBelow w = w - 1 := by
  have heven := evenBelow_toNat w
  bv_omega

theorem getLsbD_zero_iff_odd (w : Word) : w.getLsbD 0 = true ↔ w.toNat % 2 = 1 := by
  rw [BitVec.getLsbD, Nat.testBit_zero, decide_eq_true_eq]

/-- Settles O8, case by case of the value written. -/
theorem stageCursorWrites : Obligations.StageCursorWrites := by
  intro w s hheld
  have hslot := next_taken s (·.stageSlotWrite w) hheld
  have hoffset := next_taken s (·.stageOffsetWrite w) hheld
  have hodd := getLsbD_zero_iff_odd w
  refine ⟨fun n hn => hslot.trans ?taken, fun hrange => hslot.trans ?range, fun heven => hoffset.trans ?even,
    fun hone => hoffset.trans ?odd⟩
  case taken =>
    have hlt : w.toNat < 32 := hn ▸ n.isLt
    have hval : (⟨w.toNat, hlt⟩ : SlotNo) = n := Fin.ext hn
    simp only [State.stageSlotWrite, hlt, dite_true, hval]
    rfl
  case range =>
    simp only [State.stageSlotWrite, Nat.not_lt.mpr hrange, dite_false, State.misuse_eq]
  case even =>
    have hbit : ¬ w.getLsbD 0 = true := fun h => by rw [hodd] at h; omega
    simp only [State.stageOffsetWrite, hbit, evenBelow_of_even w heven]
    rfl
  case odd =>
    simp only [State.stageOffsetWrite, hodd.mpr hone, evenBelow_of_odd w hone, State.misuse_eq]
    rfl

end Sys2Proof.Machine
end

section
/-!
PROOF. The stage port (section 7.3): what an access of STAGE_DATA does, by the area that the slot's op and state allow.
-/
set_option Elab.async false

namespace Sys2Proof.Machine

variable {s : State} {x : Exchange}

/-! ### Writes of STAGE_DATA -/

theorem Exchange.writeAllowed_iff (x : Exchange) : x.writeAllowed = true ↔ x.op ≠ .read ∧ x.st = .prepared := by
  unfold Exchange.writeAllowed
  cases x.op <;> cases x.st <;> simp

theorem State.stageDataWrite_of_allowed (w : Word) (hx : s.slots[s.host.stageSlot] = some x) (hop : x.op ≠ .read)
    (hst : x.st = .prepared) (ho : s.host.stageOffset.toNat < x.count) :
    s.stageDataWrite w = (s.storeWord s.host.stageSlot x s.host.stageOffset.toNat w).advanceOffset := by
  simp only [State.stageDataWrite, hx, x.writeAllowed_iff.mpr ⟨hop, hst⟩, ho, if_true]

theorem State.stageDataWrite_of_beyond (w : Word) (hx : s.slots[s.host.stageSlot] = some x) (hop : x.op ≠ .read)
    (hst : x.st = .prepared) (ho : x.count ≤ s.host.stageOffset.toNat) :
    s.stageDataWrite w = s.misuse .range := by
  simp only [State.stageDataWrite, hx, x.writeAllowed_iff.mpr ⟨hop, hst⟩, Nat.not_lt.mpr ho, if_true, if_false]

theorem State.stageDataWrite_of_refused (w : Word)
    (h : ∀ x, s.slots[s.host.stageSlot] = some x → x.op = .read ∨ x.st ≠ .prepared) :
    s.stageDataWrite w = s.misuse .state := by
  unfold State.stageDataWrite
  split
  · rfl
  · next x hx =>
    have hno : ¬ x.writeAllowed = true := by rw [x.writeAllowed_iff]; have := h x hx; tauto
    rw [if_neg hno]

/-- A word stored among parameter bytes: the low byte at the offset, the high byte behind it below the limit. -/
theorem getElem?_putParams (params : List Byte) (o limit : Nat) (w : Word) (ho : o < limit)
    (hlen : limit ≤ params.length) (i : Nat) :
    (putParams params o limit w)[i]? =
      if i = o then some (BitVec.ofNat 8 w.toNat)
      else if i = o + 1 ∧ o + 1 < limit then some (BitVec.ofNat 8 (w.toNat / 256))
      else params[i]? := by
  unfold putParams
  rw [← lowByte_eq, ← highByte_eq]
  by_cases hnext : o + 1 < limit <;> grind

@[simp] theorem length_putParams (params : List Byte) (o limit : Nat) (w : Word) :
    (putParams params o limit w).length = params.length := by
  unfold putParams
  split <;> simp

/-- Settles O9, from the bytes that a stored word leaves in a page chain and among parameter bytes. -/
theorem stageDataWriteStoresWord : Obligations.StageDataWriteStoresWord := by
  refine ⟨fun w s x p o hheld hx hop hst ho hlt heven hp hwf => ?chain,
    fun w s x o hheld hx hop hst ho hlt hcount hlen => ?params⟩
  case chain =>
    have hexec : exec (.stageDataWrite w) s = _ := (next_taken s _ hheld).trans
      (congrArg _ (s.stageDataWrite_of_allowed w hx (by simp [hop]) hst (ho ▸ hlt)))
    refine ⟨putChain s.stage.mem x.chain o x.count w, hexec.trans ?_, putChain_wf _ _ _ _ _ hwf, fun a => ?_⟩
    · simp only [State.storeWord, hop, ho]
      rfl
    · rw [readByte_putChain _ _ _ _ _ _ hwf heven hp, lowByte_eq, highByte_eq]
      simp only [pageAddress, Nat.add_assoc]
      rfl
  case params =>
    have hexec : exec (.stageDataWrite w) s = _ := (next_taken s _ hheld).trans
      (congrArg _ (s.stageDataWrite_of_allowed w hx (by simp [hop]) hst (ho ▸ hlt)))
    refine ⟨putParams x.params o x.count w, hexec.trans ?_, by simp [hlen], fun i =>
      getElem?_putParams _ _ _ _ hlt (by omega) i⟩
    simp only [State.storeWord, hop, ho]
    rfl

/-! ### Reads of STAGE_DATA -/

theorem State.stageDataRead_of_below {area : Area} {limit : Nat} (hx : s.slots[s.host.stageSlot] = some x)
    (harea : x.readArea = some (area, limit)) (ho : s.host.stageOffset.toNat < limit) :
    s.stageDataRead = (s.areaWord area s.host.stageOffset.toNat limit, s.advanceOffset) := by
  simp only [State.stageDataRead, hx, harea, ho, if_true]

theorem State.stageDataRead_of_beyond {area : Area} {limit : Nat} (hx : s.slots[s.host.stageSlot] = some x)
    (harea : x.readArea = some (area, limit)) (ho : limit ≤ s.host.stageOffset.toNat) :
    s.stageDataRead = (0, s.misuse .range) := by
  simp only [State.stageDataRead, hx, harea, Nat.not_lt.mpr ho, if_false]

theorem State.stageDataRead_of_refused (h : ∀ x, s.slots[s.host.stageSlot] = some x → x.readArea = none) :
    s.stageDataRead = (0, s.misuse .state) := by
  unfold State.stageDataRead
  split
  · rfl
  · next x hx => rw [h x hx]

theorem Exchange.readArea_eq_none (x : Exchange)
    (h : (x.op = .read ∧ x.st.isDone = false) ∨ (x.op = .control ∧ x.st ≠ .prepared ∧ x.st.isDone = false)) :
    x.readArea = none := by
  unfold Exchange.readArea
  rcases h with ⟨hop, hdone⟩ | ⟨hop, hst, hdone⟩
  · rw [hop]; cases hs : x.st <;> simp_all [SlotState.isDone]
  · rw [hop]; cases hs : x.st <;> simp_all [SlotState.isDone]

/-- The area of a read, with its bytes, in each op and state that allows one (R135). -/
theorem State.readArea_bytes (s : State) (x : Exchange) (byteAt : Nat → Byte) (limit : Nat)
    (h : (x.op = Op.write ∧ limit = x.count ∧ byteAt = Memory.chainByte s.stage.mem x.chain) ∨
      (x.op = Op.read ∧ x.st.isDone = true ∧ limit = x.doneCount ∧ byteAt = Memory.chainByte s.stage.mem x.chain) ∨
      (x.op = Op.control ∧ x.st = .prepared ∧ limit = x.count ∧ byteAt = fun i => x.params.getD i 0) ∨
      (x.op = Op.control ∧ ∃ f st u result, x.st = .done f st u result ∧ limit = result.length ∧
        byteAt = fun i => result.getD i 0)) :
    ∃ area, x.readArea = some (area, limit) ∧ s.areaByte area = byteAt := by
  unfold Exchange.readArea
  rcases h with ⟨hop, rfl, rfl⟩ | ⟨hop, hdone, rfl, rfl⟩ | ⟨hop, hst, rfl, rfl⟩ | ⟨hop, f, st, u, result, hst, rfl, rfl⟩
  · exact ⟨.chain x.chain, by rw [hop], rfl⟩
  · refine ⟨.chain x.chain, ?_, rfl⟩
    rw [hop]
    cases hs : x.st <;> simp_all [SlotState.isDone]
  · exact ⟨.bytes x.params, by rw [hop, hst], rfl⟩
  · exact ⟨.bytes result, by rw [hop, hst], rfl⟩

/-- Settles O10: below the limit the area's word is read, at or beyond it the access is a misuse. -/
theorem stageDataReadReturnsArea : Obligations.StageDataReadReturnsArea := by
  intro s x byteAt limit o hheld hx ho harea
  obtain ⟨area, hread, rfl⟩ := s.readArea_bytes x byteAt limit harea
  have hexec := next_hostRead s State.stageDataRead hheld
  subst ho
  refine ⟨fun hlt => hexec.trans ?_, fun hge => hexec.trans ?_⟩
  · rw [State.stageDataRead_of_below hx hread hlt]
    rfl
  · rw [State.stageDataRead_of_beyond hx hread hge, State.misuse_eq]
    rfl

/-- Settles O11: a refused access is a misuse and nothing else. -/
theorem stageAccessRefused : Obligations.StageAccessRefused := by
  intro w s hheld
  have hwrite := next_taken s (·.stageDataWrite w) hheld
  refine ⟨fun h => hwrite.trans ?_, fun x hx hop hst hge => hwrite.trans ?_,
    fun h => (next_hostRead s State.stageDataRead hheld).trans ?_⟩
  · rw [State.stageDataWrite_of_refused w h, State.misuse_eq]
  · rw [State.stageDataWrite_of_beyond w hx hop hst hge, State.misuse_eq]
  · rw [State.stageDataRead_of_refused fun x hx => x.readArea_eq_none (h x hx), State.misuse_eq]
    rfl

end Sys2Proof.Machine
end

section
/-!
PROOF. Snapshots, views, the timebase and the window (sections 9.3, 10.4, 10.5 and 11.2 to 11.4): the words that carry
a record, and the writes that are rows of their own.
-/
set_option Elab.async false

namespace Sys2Proof.Machine

/-! ### The snapshots and the select registers (R163, R180, R181) -/

theorem State.selectedSlotWords_of_slot (s : State) (n : SlotNo) (h : s.host.slotSelect.toNat = n.val) :
    s.selectedSlotWords = s.slotViewWords n := by
  have hlt : s.host.slotSelect.toNat < 32 := h ▸ n.isLt
  have hn : (⟨s.host.slotSelect.toNat, hlt⟩ : SlotNo) = n := Fin.ext h
  simp only [State.selectedSlotWords, hlt, dite_true, hn]

theorem stationAt_address (a : StationNo) : stationAt (a.val + 1) = some a := by
  have h : 1 ≤ a.val + 1 ∧ a.val + 1 ≤ 15 := by omega
  simp [stationAt, h]

theorem stationAt_outside {n : Nat} (h : n = 0 ∨ 16 ≤ n) : stationAt n = none := by
  rw [stationAt, dif_neg (by omega)]

theorem stationAt_eq_some {n : Nat} {a : StationNo} (h : stationAt n = some a) : n = a.val + 1 := by
  unfold stationAt at h
  split at h
  · cases h; simp only; omega
  · cases h

theorem State.selectedStationWords_of_station (s : State) (a : StationNo)
    (h : s.host.stationSelect.toNat = a.val + 1) : s.selectedStationWords = s.stations[a].viewWords := by
  simp only [State.selectedStationWords, h, stationAt_address]

/-- Settles O12, from what each read puts in its snapshot. -/
theorem snapshotReadsAndSelects : Obligations.SnapshotReadsAndSelects := by
  refine ⟨fun s hheld => ⟨_, next_hostRead s State.event0Read hheld, rfl, fun hnil => ?empty, fun r rest hr => ?head⟩,
    fun w s hheld => ⟨next_taken s _ hheld, next_taken s _ hheld, fun n hn => ?slot, fun hge => ?noSlot,
      fun a ha => ?station, fun hno => ?noStation⟩⟩
  case empty =>
    simp [State.event0Read, State.readRegister, EventQueue.headWords, hnil, hheld, snapshotWord]
  case head =>
    simp [State.event0Read, State.readRegister, EventQueue.headWords, hr, hheld, snapshotWord, EventRecord.words]
  case slot =>
    rw [← s.selectedSlotWords_of_slot n hn]
    exact next_hostRead s State.slotView0Read hheld
  case noSlot =>
    have hwords : s.selectedSlotWords = Vector.replicate 8 0 := by
      simp only [State.selectedSlotWords, Nat.not_lt.mpr hge, dite_false]
    refine (next_hostRead s State.slotView0Read hheld).trans ?_
    simp only [State.slotView0Read, hwords]
    rfl
  case station =>
    rw [← s.selectedStationWords_of_station a ha]
    exact next_hostRead s State.stationView0Read hheld
  case noStation =>
    have hwords : s.selectedStationWords = Vector.replicate 6 0 := by
      simp only [State.selectedStationWords, stationAt_outside hno]
    refine (next_hostRead s State.stationView0Read hheld).trans ?_
    simp only [State.stationView0Read, hwords]
    rfl

/-! ### Bits of a word -/

theorem getLsbD_iff (w : Word) (i : Nat) : w.getLsbD i = decide (w.toNat / 2 ^ i % 2 = 1) := by
  rw [BitVec.getLsbD, Nat.testBit_eq_decide_div_mod_eq]

/-- A bit of a word, from the number it stands for. -/
theorem getLsbD_eq_of_bit {w : Word} {i : Nat} {b : Bool} (h : w.toNat / 2 ^ i % 2 = bit b) : w.getLsbD i = b := by
  rw [getLsbD_iff, h]
  cases b <;> rfl

theorem append_halves (v : BitVec 32) : v.extractLsb' 16 16 ++ v.extractLsb' 0 16 = v := by
  refine BitVec.eq_of_getLsbD_eq fun i hi => ?_
  rw [BitVec.getLsbD_append, BitVec.getLsbD_extractLsb', BitVec.getLsbD_extractLsb']
  by_cases h : i < 16
  · simp [h]
  · have hlt : i - 16 < 16 := by omega
    have hsum : 16 + (i - 16) = i := by omega
    simp [h, hlt, hsum]

/-! ### The codes fit their fields -/

theorem FinalStatus.code_le (f : FinalStatus) : f.code ≤ 12 := by cases f <;> simp [FinalStatus.code]
theorem Fatal.code_le (f : Fatal) : f.final.code ≤ 12 := f.final.code_le
theorem EventKind.code_le (k : EventKind) : k.code ≤ 6 := by cases k <;> simp [EventKind.code]
theorem Op.code_le (op : Op) : op.code ≤ 3 := by cases op <;> simp [Op.code]
theorem Phase.code_le (p : Phase) : p.code ≤ 5 := by cases p <;> simp [Phase.code]
theorem StationState.code_le (x : StationState) : x.code ≤ 3 := by cases x <;> simp [StationState.code]
theorem SlotState.code_le (x : SlotState) : x.code ≤ 7 := by cases x <;> simp [SlotState.code]

theorem Detail.byte_le (d : Detail) : d.byte ≤ 255 := by
  cases d with
  | absent => simp [Detail.byte]
  | status f => have := f.code_le; simp only [Detail.byte]; omega
  | cause c => cases c <;> simp [Detail.byte, LinkFault.code]
  | code b => have := b.isLt; simp only [Detail.byte]; omega

theorem Source.class_and_number_le (x : Source) : x.classAndNumber.1 ≤ 3 ∧ x.classAndNumber.2 ≤ 31 := by
  cases x <;> simp only [Source.classAndNumber] <;> omega

theorem SlotState.parkReasonCode_le (x : SlotState) : x.parkReasonCode ≤ 2 := by
  unfold SlotState.parkReasonCode
  split <;> omega

theorem SlotState.pendingCode_le (x : SlotState) : x.pendingCode ≤ 12 := by
  unfold SlotState.pendingCode
  split
  · exact Fatal.code_le _
  · exact Fatal.code_le _
  · omega

theorem State.phaseCode_le (s : State) (n : SlotNo) (x : Exchange) : s.phaseCode n x ≤ 5 := by
  unfold State.phaseCode
  split
  · split
    · exact Phase.code_le _
    · omega
  · omega

theorem tagEntry_le (e : Option SlotNo) : tagEntry e ≤ 159 := by
  cases e <;> simp only [tagEntry] <;> omega

/-! ### The event words (section 11.4) -/

theorem EventRecord.word0_toNat (r : EventRecord) :
    r.words[0].toNat = r.source.classAndNumber.1 + 4 * r.source.classAndNumber.2 + 128 * r.kind.code +
      1024 * bit r.stationStatus.isSome := by
  obtain ⟨hclass, hnumber⟩ := r.source.class_and_number_le
  have hkind := r.kind.code_le
  have hbit := bit_le r.stationStatus.isSome
  exact Nat.mod_eq_of_lt (by omega)

theorem EventRecord.word1_toNat (r : EventRecord) :
    r.words[1].toNat = r.detail.byte + 256 * (r.stationStatus.getD 0).toNat := by
  have hdetail := r.detail.byte_le
  have hstatus := (r.stationStatus.getD 0).isLt
  exact Nat.mod_eq_of_lt (by omega)

theorem EventRecord.word2_of_slot (r : EventRecord) (hv : ∀ v, r.value = some v → v ≤ 4096) {n : SlotNo}
    (h : r.source = .slot n) : r.words[2].toNat = r.value.getD 0 := by
  have hle : r.value.getD 0 ≤ 4096 := by
    cases hval : r.value with
    | none => exact Nat.zero_le _
    | some v => exact hv v hval
  have hword : r.words[2] = BitVec.ofNat 16 (r.value.getD 0) := by
    show r.word2 = _
    rw [EventRecord.word2, h]
  rw [hword]
  exact Nat.mod_eq_of_lt (by omega)

theorem EventRecord.word2_of_other (r : EventRecord) (hr : r.repeats ≤ 255) (h : ∀ n, r.source ≠ .slot n) :
    r.words[2].toNat = r.repeats + 256 * r.alsoSeen.toNat := by
  have hseen := r.alsoSeen.isLt
  have hword : r.words[2] = BitVec.ofNat 16 (r.repeats + 256 * r.alsoSeen.toNat) := by
    show r.word2 = _
    unfold EventRecord.word2
    split
    · next n hn => exact absurd hn (h n)
    · rfl
  rw [hword]
  exact Nat.mod_eq_of_lt (by omega)

/-- Every field of an event record stands in its words. -/
theorem EventRecord.words_carry (r : EventRecord) (hr : r.repeats ≤ 255) (hv : ∀ v, r.value = some v → v ≤ 4096) :
    r.words[0].toNat % 4 = r.source.classAndNumber.1 ∧ r.words[0].toNat / 4 % 32 = r.source.classAndNumber.2 ∧
    r.words[0].toNat / 128 % 8 = r.kind.code ∧ (r.words[0].getLsbD 10 = true ↔ r.stationStatus ≠ none) ∧
    r.words[1].toNat % 256 = r.detail.byte ∧ r.words[1].toNat / 256 = (r.stationStatus.getD 0).toNat ∧
    (∀ n, r.source = .slot n → r.words[2].toNat = r.value.getD 0) ∧
    ((∀ n, r.source ≠ .slot n) → r.words[2].toNat % 256 = r.repeats ∧ r.words[2].toNat / 256 = r.alsoSeen.toNat) ∧
    r.words[3] = r.timestamp := by
  obtain ⟨hclass, hnumber⟩ := r.source.class_and_number_le
  have hkind := r.kind.code_le
  have hbit := bit_le r.stationStatus.isSome
  have hdetail := r.detail.byte_le
  have hword0 := r.word0_toNat
  have hword1 := r.word1_toNat
  refine ⟨by omega, by omega, by omega, ?_, by omega, by omega, fun n hn => r.word2_of_slot hv hn, fun hno => ?_, rfl⟩
  · have hmark : r.words[0].getLsbD 10 = r.stationStatus.isSome := getLsbD_eq_of_bit (by omega)
    rw [hmark, ← Option.isSome_iff_ne_none]
  · have hword2 := r.word2_of_other hr hno
    omega

/-! ### The view words of a station (section 11.3) -/

theorem tagWord_toNat (st : Station) (lo hi : Tag) :
    (tagWord st lo hi).toNat = tagEntry st.tagMap[lo] + 256 * tagEntry st.tagMap[hi] := by
  have hlo := tagEntry_le st.tagMap[lo]
  have hhi := tagEntry_le st.tagMap[hi]
  exact Nat.mod_eq_of_lt (by omega)

theorem Station.viewWord0_toNat (st : Station) (h : st.inRange) :
    st.viewWords[0].toNat = st.state.code + 4 * st.depth + 64 * st.creditMax + 512 * st.missCount +
      2048 * bit st.backoff + 4096 * bit st.attention := by
  obtain ⟨hmiss, -, hdepth, -, hcredit, -⟩ := h
  have hstate := st.state.code_le
  have hbackoff := bit_le st.backoff
  have hattention := bit_le st.attention
  exact Nat.mod_eq_of_lt (by omega)

/-- The word and the byte of a tag map entry. -/
theorem Station.viewWords_tag (st : Station) (t : Tag) :
    (st.viewWords.toList.getD (2 + t.val / 2) 0).toNat / 256 ^ (t.val % 2) % 256 = tagEntry st.tagMap[t] := by
  have hword (lo hi : Tag) : (tagWord st lo hi).toNat % 256 = tagEntry st.tagMap[lo] ∧
      (tagWord st lo hi).toNat / 256 % 256 = tagEntry st.tagMap[hi] := by
    have hlo := tagEntry_le st.tagMap[lo]
    have hhi := tagEntry_le st.tagMap[hi]
    have h := tagWord_toNat st lo hi
    omega
  match t with
  | 0 => exact (congrArg (· % 256) (Nat.div_one _)).trans (hword 0 1).1
  | 1 => exact (hword 0 1).2
  | 2 => exact (congrArg (· % 256) (Nat.div_one _)).trans (hword 2 3).1
  | 3 => exact (hword 2 3).2
  | 4 => exact (congrArg (· % 256) (Nat.div_one _)).trans (hword 4 5).1
  | 5 => exact (hword 4 5).2
  | 6 => exact (congrArg (· % 256) (Nat.div_one _)).trans (hword 6 7).1
  | 7 => exact (hword 6 7).2

/-! ### The view words of a slot (section 11.3) -/

/-- The tag that SLOT_VIEW0 shows, 0 while the slot holds none. -/
def SlotState.tagShown (x : SlotState) : Nat :=
  match x.tag? with
  | some t => t.val
  | none => 0

theorem SlotState.tagShown_of_some {x : SlotState} {t : Tag} (h : x.tag? = some t) : x.tagShown = t.val := by
  simp [SlotState.tagShown, h]

theorem SlotState.tagShown_of_none {x : SlotState} (h : x.tag? = none) : x.tagShown = 0 := by
  simp [SlotState.tagShown, h]

theorem SlotState.tagShown_le (x : SlotState) : x.tagShown ≤ 7 := by
  cases h : x.tag? with
  | none => exact (SlotState.tagShown_of_none h).trans_le (Nat.zero_le _)
  | some t => exact (SlotState.tagShown_of_some h).trans_le (Nat.le_of_lt_succ t.isLt)

theorem State.slotViewWords_of_slot {s : State} {n : SlotNo} {x : Exchange} (h : s.slots[n] = some x) :
    s.slotViewWords n =
      #v[BitVec.ofNat 16 (x.st.code + 8 * x.op.code + 32 * bit x.urgent + 64 * (x.station.val + 1) +
           1024 * x.st.tagShown + 8192 * bit x.st.unreadShown +
           16384 * x.st.parkReasonCode),
         BitVec.ofNat 16 (x.count + 8192 * s.phaseCode n x),
         BitVec.ofNat 16 (x.doneCount + 8192 * x.st.retryShown),
         x.unitAddress.extractLsb' 0 16,
         x.unitAddress.extractLsb' 16 16,
         x.st.lateWords.1,
         x.st.lateWords.2,
         BitVec.ofNat 16 (x.busyCount + 16 * x.chain.length + 2048 * x.st.pendingCode)] := by
  rw [State.slotViewWords, h]
  rfl

/-- What an exchange in range gives of its counts. -/
theorem Exchange.inRange_bounds {x : Exchange} (h : x.inRange = true) :
    x.count ≤ 4096 ∧ x.doneCount ≤ x.count ∧ x.busyCount ≤ 8 ∧ x.st.resultLength ≤ 8 := by
  simp only [Exchange.inRange, Bool.and_eq_true, decide_eq_true_eq] at h
  obtain ⟨⟨⟨⟨⟨hcount, hdone⟩, -⟩, hresult⟩, hbusy⟩, -⟩ := h
  refine ⟨?_, hdone, ?_, hresult⟩
  · unfold countInRange at hcount
    split at hcount <;> simp at hcount <;> omega
  · split at hbusy <;> simp at hbusy <;> omega

theorem SlotState.unreadShown_eq (x : SlotState) : x.unreadShown = x.isUnread := by cases x <;> rfl

theorem State.phaseCode_of_connected {s : State} {n : SlotNo} {x : Exchange} {c : Connection} {t : Tag} {r : Nat}
    {p : Option Fatal} (hop : s.link.op = .exchange c) (hc : c.slot = n) (hst : x.st = .connected t r p) :
    s.phaseCode n x = c.phase.code := by
  simp [State.phaseCode, hop, hst, hc]

theorem State.phaseCode_of_other (s : State) (n : SlotNo) {x : Exchange} (h : ∀ t r p, x.st ≠ .connected t r p) :
    s.phaseCode n x = 0 := by
  unfold State.phaseCode
  split
  · next hst => exact absurd hst (h _ _ _)
  · rfl

section SlotView

variable {s : State} {n : SlotNo} {x : Exchange} (h : s.slots[n] = some x)
include h

theorem State.slotViewWord0_toNat :
    (s.slotViewWords n)[0].toNat = x.st.code + 8 * x.op.code + 32 * bit x.urgent + 64 * (x.station.val + 1) +
      1024 * x.st.tagShown + 8192 * bit x.st.unreadShown +
      16384 * x.st.parkReasonCode := by
  rw [State.slotViewWords_of_slot h]
  have hcode := x.st.code_le
  have hop := x.op.code_le
  have hurgent := bit_le x.urgent
  have hunread := bit_le x.st.unreadShown
  have hpark := x.st.parkReasonCode_le
  have htag := x.st.tagShown_le
  exact Nat.mod_eq_of_lt (by omega)

theorem State.slotViewWord1_toNat (hx : x.inRange = true) :
    (s.slotViewWords n)[1].toNat = x.count + 8192 * s.phaseCode n x := by
  rw [State.slotViewWords_of_slot h]
  obtain ⟨hcount, -⟩ := Exchange.inRange_bounds hx
  have hphase := s.phaseCode_le n x
  exact Nat.mod_eq_of_lt (by omega)

theorem State.slotViewWord2_toNat (hx : x.inRange = true) (hr : x.st.retryShown ≤ 7) :
    (s.slotViewWords n)[2].toNat = x.doneCount + 8192 * x.st.retryShown := by
  rw [State.slotViewWords_of_slot h]
  obtain ⟨hcount, hdone, -⟩ := Exchange.inRange_bounds hx
  exact Nat.mod_eq_of_lt (by omega)

theorem State.slotViewWord7_toNat (hx : x.inRange = true) (hchain : x.chain.length ≤ 64) :
    (s.slotViewWords n)[7].toNat = x.busyCount + 16 * x.chain.length + 2048 * x.st.pendingCode := by
  rw [State.slotViewWords_of_slot h]
  obtain ⟨-, -, hbusy, -⟩ := Exchange.inRange_bounds hx
  have hpending := x.st.pendingCode_le
  exact Nat.mod_eq_of_lt (by omega)

end SlotView

/-- The completion fields of a DONE slot stand in SLOT_VIEW5 and SLOT_VIEW6. -/
theorem lateWords_of_done (f : FinalStatus) (st : Option Byte) (u : Bool) (res : List Byte) (h : res.length ≤ 8) :
    (SlotState.done f st u res).lateWords.1.toNat % 16 = f.code ∧
    (SlotState.done f st u res).lateWords.1.toNat / 16 % 16 = res.length ∧
    (SlotState.done f st u res).lateWords.1.getLsbD 8 = st.isSome ∧
    (SlotState.done f st u res).lateWords.2.toNat = (st.getD 0).toNat := by
  have hf := f.code_le
  have hbit := bit_le st.isSome
  have hstatus := (st.getD 0).isLt
  have hword : (SlotState.done f st u res).lateWords.1.toNat = f.code + 16 * res.length + 256 * bit st.isSome :=
    Nat.mod_eq_of_lt (by omega)
  exact ⟨by omega, by omega, getLsbD_eq_of_bit (by omega), Nat.mod_eq_of_lt (by omega)⟩

/-- Settles O13, from the number that each word stands for. -/
theorem readWordsCarryTheRecords : Obligations.ReadWordsCarryTheRecords := by
  refine ⟨fun r hr hv => ?event, fun s n x h hx hchain hretry => ?slot, fun s n h => ?free, fun st hst => ?station⟩
  case event =>
    obtain ⟨hclass, hnumber, hkind, hmark, hdetail, hstatus, hslot, hother, hstamp⟩ := r.words_carry hr hv
    refine ⟨hclass.trans ?_, hnumber.trans ?_, hkind.trans ?_, hmark, fun f hf => hdetail.trans ?_,
      fun c hc => hdetail.trans ?_, fun b hb => hdetail.trans ?_, fun ha => hdetail.trans ?_, fun hnone => hstatus.trans ?_,
      fun b hb => hstatus.trans ?_, hslot, hother, hstamp⟩
    · cases r.source <;> rfl
    · cases r.source <;> rfl
    · cases r.kind <;> rfl
    · rw [hf]; cases f <;> rfl
    · rw [hc]; cases c <;> rfl
    · rw [hb]; rfl
    · rw [ha]; rfl
    · rw [hnone]; rfl
    · rw [hb]; rfl
  case slot =>
    have hshown : x.st.retryShown = (match x.st with | .connected _ r _ => r | .aborting _ _ (some r) => r | _ => 0) := by
      generalize x.st = v
      cases v with
      | aborting t f r => cases r <;> rfl
      | _ => rfl
    have hword0 := State.slotViewWord0_toNat h
    have hword1 := State.slotViewWord1_toNat h hx
    have hword2 := State.slotViewWord2_toNat h hx (hshown ▸ hretry)
    have hword7 := State.slotViewWord7_toNat h hx hchain
    obtain ⟨hcount, hdone, hbusy, hresult⟩ := Exchange.inRange_bounds hx
    have hcode := x.st.code_le
    have hop := x.op.code_le
    have hurgent := bit_le x.urgent
    have hunread := bit_le x.st.unreadShown
    have hpark := x.st.parkReasonCode_le
    have htag := x.st.tagShown_le
    have hlate5 : (s.slotViewWords n)[5] = x.st.lateWords.1 := by rw [State.slotViewWords_of_slot h]; rfl
    have hlate6 : (s.slotViewWords n)[6] = x.st.lateWords.2 := by rw [State.slotViewWords_of_slot h]; rfl
    refine ⟨Eq.trans (b := x.st.code) (by omega) ?_, Eq.trans (b := x.op.code) (by omega) ?_,
      getLsbD_eq_of_bit (by omega), by omega, fun t ht => ?_, fun ht => ?_,
      (getLsbD_eq_of_bit (by omega)).trans x.st.unreadShown_eq,
      Eq.trans (b := x.st.parkReasonCode) (by omega) ?_, by omega, fun c t r p hlink hc hconn => ?_,
      fun hno => ?_, by omega, Eq.trans (b := x.st.retryShown) (by omega) hshown, ?_, fun t d hpk => ?_,
      fun f st u res hd => ?_, fun hnd hnp => ?_, by omega, by omega, Eq.trans (b := x.st.pendingCode) (by omega) ?_⟩
    · cases x.st <;> rfl
    · cases x.op <;> rfl
    · rw [SlotState.tagShown_of_some ht] at hword0; omega
    · rw [SlotState.tagShown_of_none ht] at hword0; omega
    · generalize x.st = v
      cases v with
      | recalled t r => cases r <;> rfl
      | _ => rfl
    · rw [State.phaseCode_of_connected hlink hc hconn] at hword1
      have hphase : (s.slotViewWords n)[1].toNat / 8192 = c.phase.code := by omega
      rw [hphase]; cases c.phase <;> rfl
    · rw [s.phaseCode_of_other n hno] at hword1; omega
    · rw [State.slotViewWords_of_slot h]; exact append_halves _
    · rw [hlate5, hlate6, hpk]; exact append_halves d
    · rw [hlate5, hlate6, hd]
      rw [hd] at hresult
      obtain ⟨hf, hlen, hmark, hstatus⟩ := lateWords_of_done f st u res hresult
      refine ⟨hf.trans ?_, hlen, hmark, hstatus⟩
      cases f <;> rfl
    · rw [hlate5, hlate6]
      cases hs : x.st with
      | parkedStation t d => exact absurd hs (hnp t d)
      | done f st u res => rw [hs] at hnd; cases hnd
      | _ => exact ⟨rfl, rfl⟩
    · generalize x.st = v
      cases v with
      | connected t r p =>
        cases p with
        | none => rfl
        | some f => cases f <;> rfl
      | aborting t f r => cases f <;> rfl
      | _ => rfl
  case free => rw [State.slotViewWords, h]
  case station =>
    have hword0 := st.viewWord0_toNat hst
    obtain ⟨hmiss, -, hdepth, -, hcredit, -⟩ := hst
    have hstate := st.state.code_le
    have hbackoff := bit_le st.backoff
    have hattention := bit_le st.attention
    refine ⟨Eq.trans (b := st.state.code) (by omega) ?_, by omega, by omega, by omega, getLsbD_eq_of_bit (by omega),
      getLsbD_eq_of_bit (by omega), rfl, fun t => (st.viewWords_tag t).trans ?_⟩
    · cases st.state <;> rfl
    · cases st.tagMap[t] <;> rfl

/-! ### The timebase (R182) -/

theorem State.endByLinkReset_park (s : State) (n : SlotNo) : (s.endByLinkReset n).park.timebase = s.park.timebase := by
  unfold State.endByLinkReset State.enterDone
  split
  · split
    · rfl
    · next x _ => cases hc : x.isConnectedRead <;> simp [State.leaveLists]
  · rfl

@[simp] theorem State.endByLinkReset_host (s : State) (n : SlotNo) : (s.endByLinkReset n).host = s.host := by
  unfold State.endByLinkReset
  split
  · exact State.enterDone_host s n _ _ _
  · rfl

/-- What every slot's end leaves alone, a whole link reset leaves alone. -/
theorem foldl_endByLinkReset {α : Type} (f : State → α) (h : ∀ s n, f (State.endByLinkReset s n) = f s)
    (l : List SlotNo) (s : State) : f (l.foldl State.endByLinkReset s) = f s := by
  induction l generalizing s with
  | nil => rfl
  | cons n l ih => rw [List.foldl_cons, ih, h]

theorem State.beginLinkReset_timebase (s : State) : s.beginLinkReset.park.timebase = s.park.timebase := by
  unfold State.beginLinkReset
  generalize List.finRange 32 = l
  exact foldl_endByLinkReset (·.park.timebase) State.endByLinkReset_park l _

theorem State.beginLinkReset_host (s : State) : s.beginLinkReset.host = s.host := by
  unfold State.beginLinkReset
  generalize List.finRange 32 = l
  exact foldl_endByLinkReset (·.host) State.endByLinkReset_host l _

/-- Settles O15. -/
theorem timebaseReadsInTwoHalves : Obligations.TimebaseReadsInTwoHalves := by
  intro w strap s hheld
  refine ⟨⟨_, next_hostRead s State.timebaseLoRead hheld, rfl, append_halves _⟩, by simp [State.readRegister, hheld],
    next_taken s _ hheld, next_taken s _ hheld, fun c hc => ?reset, ⟨_, next_taken s _ hheld, ?_, ?_⟩⟩
  case reset =>
    rcases hc with rfl | rfl
    · exact ⟨_, next_taken s _ hheld, rfl, rfl⟩
    · exact ⟨_, rfl, rfl, rfl⟩
  all_goals
    unfold State.linkReset
    split
    · rfl
  · simp only [State.result_park, State.beginLinkReset_timebase]
  · simp only [State.result, State.withHost_host, State.beginLinkReset_host]

/-! ### A write to any address (R168, R174) -/

theorem State.registerWrite_ignored (s : State) (offset : BitVec 7) (w : Word)
    (h : offset.toNat ∉
      [0x01, 0x02, 0x03, 0x04, 0x08, 0x10, 0x11, 0x12, 0x13, 0x14, 0x18, 0x21, 0x28, 0x29, 0x2A, 0x34]) :
    s.registerWrite offset w = s := by
  simp only [List.mem_cons, List.not_mem_nil, or_false, not_or] at h
  unfold State.registerWrite
  split
  case h_17 => rfl
  all_goals exfalso; omega

theorem State.command_unknown (s : State) (code : Byte) (h : code = 0 ∨ 11 ≤ code.toNat) :
    s.command code = s.answered .badCommand 0 := by
  have hcode : code.toNat = 0 ∨ 11 ≤ code.toNat := h.imp_left (fun h => by rw [h]; rfl)
  unfold State.command
  split
  case h_11 => rfl
  all_goals exfalso; omega

/-- COMMAND by a code that names a command is that command's row. -/
theorem exec_command_row {s : State} {w : Word} {c : Instr} {f : State → State}
    (hexec : exec c s = .next (s.taken f)) (h : ∀ u : State, u.command (BitVec.ofNat 8 w.toNat) = f u) :
    exec (.registerWrite 0x10 w) s = exec c s ∧ exec (.unknownCommandCode (BitVec.ofNat 8 w.toNat)) s = exec c s := by
  obtain rfl : (fun u : State => u.command (BitVec.ofNat 8 w.toNat)) = f := funext h
  exact ⟨hexec.symm, hexec.symm⟩

/-- Settles O16. -/
theorem registerWritesStoreOrIgnore : Obligations.RegisterWritesStoreOrIgnore := by
  refine ⟨fun w s hheld => ⟨fun i => ?args, fun offset h => ?ignored⟩, fun code s hheld h => ?unknown,
    fun w s => ⟨fun c hc => ?command, fun offset c hc => ?row⟩⟩
  case args =>
    match i with
    | 0 => exact next_taken s _ hheld
    | 1 => exact next_taken s _ hheld
    | 2 => exact next_taken s _ hheld
    | 3 => exact next_taken s _ hheld
  case ignored => exact (next_taken s _ hheld).trans (congrArg _ (s.registerWrite_ignored offset w h))
  case unknown => exact (next_taken s _ hheld).trans (congrArg _ (s.command_unknown code h))
  case command =>
    have hcode : (BitVec.ofNat 8 w.toNat).toNat = w.toNat % 256 := BitVec.toNat_ofNat _ _
    simp only [List.mem_cons, Prod.mk.injEq, List.not_mem_nil, or_false] at hc
    rcases hc with ⟨hw, rfl⟩ | ⟨hw, rfl⟩ | ⟨hw, rfl⟩ | ⟨hw, rfl⟩ | ⟨hw, rfl⟩ | ⟨hw, rfl⟩ | ⟨hw, rfl⟩ | ⟨hw, rfl⟩ |
      ⟨hw, rfl⟩ | ⟨hw, rfl⟩ <;>
    exact exec_command_row rfl fun u => by simp only [State.command, hcode, hw]
  case row =>
    simp only [List.mem_cons, Prod.mk.injEq, List.not_mem_nil, or_false] at hc
    rcases hc with ⟨rfl, rfl⟩ | ⟨rfl, rfl⟩ | ⟨rfl, rfl⟩ | ⟨rfl, rfl⟩ | ⟨rfl, rfl⟩ | ⟨rfl, rfl⟩ | ⟨rfl, rfl⟩ |
      ⟨rfl, rfl⟩ | ⟨rfl, rfl⟩ | ⟨rfl, rfl⟩ | ⟨rfl, rfl⟩ <;>
    rfl

end Sys2Proof.Machine
end

section
/-!
PROOF. The slot commands, the station commands without STATION_OFF, and the resets without the link reset: each command
by its arguments and the state of the slot or station it names.
-/
set_option Elab.async false

namespace Sys2Proof.Machine

variable {s : State}

/-! ### The arguments of a CLAIM (R10) -/

theorem opOfCode_eq_some {n : Nat} {op : Op} : opOfCode n = some op ↔ n = op.code := by
  unfold opOfCode
  split <;> cases op <;> simp [Op.code] <;> omega

theorem State.argOp_eq_some {op : Op} : s.argOp = some op ↔ s.host.args[0].toNat / 256 % 16 = op.code := by
  have hfield : ((s.arg 0).extractLsb' 8 4).toNat = s.host.args[0].toNat / 256 % 16 := by
    rw [BitVec.extractLsb'_toNat, Nat.shiftRight_eq_div_pow]; rfl
  rw [State.argOp, hfield, opOfCode_eq_some]

theorem State.argUrgent_eq_some {u : Bool} : s.argUrgent = some u ↔ s.host.args[0].toNat / 4096 % 4 = bit u := by
  have hfield : ((s.arg 0).extractLsb' 12 2).toNat = s.host.args[0].toNat / 4096 % 4 := by
    rw [BitVec.extractLsb'_toNat, Nat.shiftRight_eq_div_pow]; rfl
  rw [State.argUrgent, hfield]
  generalize s.host.args[0].toNat / 4096 % 4 = n
  split <;> cases u <;> simp [bit] <;> omega

theorem stationAt_eq_some_iff {n : Nat} {a : StationNo} : stationAt n = some a ↔ n = a.val + 1 :=
  ⟨stationAt_eq_some, fun h => h ▸ stationAt_address a⟩

theorem State.argStation_eq_some {a : StationNo} : s.argStation = some a ↔ s.host.args[0].toNat % 256 = a.val + 1 :=
  stationAt_eq_some_iff

theorem countInRange_iff (op : Op) (count : Nat) :
    countInRange op count = true ↔ if op.code = 3 then count ≤ 8 else 1 ≤ count ∧ count ≤ 4096 := by
  cases op <;> simp [countInRange, Op.code]

/-- CLAIM has arguments exactly when every field is in range. -/
theorem State.claimArgs_eq_some {g : ClaimArgs} :
    s.claimArgs = some g ↔
      s.argOp = some g.op ∧ s.argStation = some g.station ∧ s.argUrgent = some g.urgent ∧
      s.host.args[1].toNat = g.count ∧ countInRange g.op g.count = true ∧ s.argUnitAddress = g.unitAddress := by
  obtain ⟨op, a, u, count, unit⟩ := g
  unfold State.claimArgs
  split
  · next op' a' u' hop ha hu =>
    rw [hop, ha, hu]
    have harg : s.arg 1 = s.host.args[1] := rfl
    split <;> simp only [harg, Option.some.injEq, ClaimArgs.mk.injEq, reduceCtorEq, false_iff] <;> grind
  · next hno =>
    simp only [reduceCtorEq, false_iff]
    rintro ⟨hop, ha, hu, -⟩
    exact hno _ _ _ hop ha hu

theorem Station.isOffline_iff (st : Station) : st.isOffline = true ↔ st.state = .offline := by
  simp [Station.isOffline]

/-! ### The first of a range that has a property -/

theorem find?_finRange_eq_some {k : Nat} {p : Fin k → Bool} {n : Fin k} (hn : p n = true)
    (hmin : ∀ m, m < n → p m = false) : (List.finRange k).find? p = some n := by
  rw [List.find?_eq_some_iff_getElem]
  refine ⟨hn, n.val, by simp, by simp, fun j hj => ?_⟩
  have hlt : j < k := hj.trans n.isLt
  simp [hmin ⟨j, hlt⟩ hj]

theorem State.lowestFree_eq_some {n : SlotNo} (hn : s.slots[n] = none) (hmin : ∀ m : SlotNo, m < n → s.slots[m] ≠ none) :
    s.lowestFree = some n := by
  refine find?_finRange_eq_some (by simp only [hn, Option.isNone_none]) fun m hm => ?_
  rw [Option.isNone_eq_false_iff, Option.isSome_iff_ne_none]
  exact hmin m hm

theorem State.lowestFree_eq_none (h : ∀ n : SlotNo, s.slots[n] ≠ none) : s.lowestFree = none := by
  rw [State.lowestFree, List.find?_eq_none]
  intro n _ hnone
  exact h n (Option.isNone_iff_eq_none.mp hnone)

/-- A free slot gives CLAIM a lowest one. -/
theorem State.lowestFree_isSome (h : ∃ n : SlotNo, s.slots[n] = none) : ∃ m, s.lowestFree = some m := by
  obtain ⟨n, hn⟩ := h
  refine Option.isSome_iff_exists.mp ?_
  rw [State.lowestFree, List.find?_isSome]
  exact ⟨n, List.mem_finRange n, Option.isNone_iff_eq_none.mpr hn⟩

/-! ### CLAIM -/

theorem State.claim_of_badParam (h : s.claimArgs = none) : s.claim = s.answered .badParam 0 := by
  rw [State.claim, h]
  rfl

section Claim

variable {g : ClaimArgs} (hg : s.claimArgs = some g)
include hg

theorem State.claim_of_offline (h : s.stations[g.station].state = .offline) :
    s.claim = s.answered .stationOffline 0 := by
  simp only [State.claim, hg, (Station.isOffline_iff _).mpr h, if_true, State.result_eq]

theorem State.claim_of_noSlot (h : s.stations[g.station].state ≠ .offline) (hn : s.lowestFree = none) :
    s.claim = s.answered .noSlot 0 := by
  have hon : ¬ s.stations[g.station].isOffline = true := fun e => h ((Station.isOffline_iff _).mp e)
  simp only [State.claim, hg, hon, hn, State.result_eq]
  rfl

theorem State.claim_of_noPages (h : s.stations[g.station].state ≠ .offline) {n : SlotNo} (hn : s.lowestFree = some n)
    (hp : s.stage.free.length < pagesClaimed g) : s.claim = s.answered .noPages 0 := by
  have hon : ¬ s.stations[g.station].isOffline = true := fun e => h ((Station.isOffline_iff _).mp e)
  simp only [State.claim, hg, hon, hn, hp, if_true, State.result_eq]
  rfl

theorem State.claim_of_ok (h : s.stations[g.station].state ≠ .offline) {n : SlotNo} (hn : s.lowestFree = some n)
    (hp : pagesClaimed g ≤ s.stage.free.length) :
    s.claim = ((s.withStage (·.takeZeroed (pagesClaimed g))).setSlot n
      (some (claimedExchange g (s.stage.free.take (pagesClaimed g))))).answered .ok n.val := by
  have hon : ¬ s.stations[g.station].isOffline = true := fun e => h ((Station.isOffline_iff _).mp e)
  simp only [State.claim, hg, hon, hn, Nat.not_lt.mpr hp, if_false, State.result_eq]
  rfl

end Claim

/-! ### Commands on a slot: the refusals -/

theorem State.argSlot_of_lt {n : SlotNo} (h : s.host.args[0].toNat % 256 = n.val) : s.argSlot = some n := by
  have hnum : s.argNumber = n.val := h
  have hlt : s.argNumber < 32 := hnum ▸ n.isLt
  rw [State.argSlot, dif_pos hlt]
  exact congrArg some (Fin.ext hnum)

theorem State.onSlot_of_lt {n : SlotNo} (h : s.host.args[0].toNat % 256 = n.val) (f : SlotNo → State) :
    s.onSlot f = f n := by
  simp only [State.onSlot, State.argSlot_of_lt h]

theorem State.onSlot_of_ge (h : 32 ≤ s.host.args[0].toNat % 256) (f : SlotNo → State) :
    s.onSlot f = s.answered .badParam 0 := by
  have hnone : s.argSlot = none := dif_neg (Nat.not_lt.mpr h)
  simp only [State.onSlot, hnone, State.result_eq]

variable {n : SlotNo} {x : Exchange}

theorem State.issueSlot_refused (hx : s.slots[n] = some x) (h : x.st ≠ .prepared) :
    s.issueSlot n = s.answered .badState n.val := by
  simp only [State.issueSlot, hx]
  cases hs : x.st <;> simp_all [State.result_eq]

theorem State.issueSlot_offline (hx : s.slots[n] = some x) (h : x.st = .prepared)
    (ho : s.stations[x.station].state = .offline) : s.issueSlot n = s.answered .stationOffline n.val := by
  simp only [State.issueSlot, hx, h, (Station.isOffline_iff _).mpr ho, if_true, State.result_eq]

theorem State.abortSlot_refused (hx : s.slots[n] = some x) (h : x.st = .prepared ∨ x.st.isDone = true) :
    s.abortSlot n = s.answered .badState n.val := by
  simp only [State.abortSlot, hx]
  cases hs : x.st <;> simp_all [SlotState.isDone, State.result_eq]

theorem State.abortSlot_already (hx : s.slots[n] = some x) {t : Tag} {r : Option Nat} {f : Fatal}
    (h : x.st = .aborting t f r ∨ ∃ k, x.st = .connected t k (some f)) :
    s.abortSlot n = s.answered .already n.val := by
  rcases h with h | ⟨k, h⟩ <;> simp only [State.abortSlot, hx, h, State.result_eq]

theorem State.releaseSlot_unread (hx : s.slots[n] = some x) (h : x.st.isUnread = true) :
    s.releaseSlot n = s.answered .eventUnread n.val := by
  simp only [State.releaseSlot, hx]
  cases hs : x.st <;> simp_all [SlotState.isUnread, State.result_eq]

theorem State.releaseSlot_refused (hx : s.slots[n] = some x) (h : x.st ≠ .prepared) (hd : x.st.isDone = false) :
    s.releaseSlot n = s.answered .badState n.val := by
  simp only [State.releaseSlot, hx]
  cases hs : x.st <;> simp_all [SlotState.isDone, State.result_eq]

/-- Settles O17, check by check in the order of R10 and of the tables of R12 to R15. -/
theorem slotCommandRefusals : Obligations.SlotCommandRefusals := by
  refine ⟨fun s station op priority count hheld hstation hop hpriority hcount => ?claim, fun s hheld => ⟨?number, ?slot⟩⟩
  case claim =>
    intro inRange
    have hexec := next_taken s State.claim hheld
    subst hstation hop hpriority hcount
    refine ⟨fun hout => hexec.trans (congrArg _ (State.claim_of_badParam ?_)), fun hin a ha => ?_⟩
    · refine Option.eq_none_iff_forall_ne_some.mpr fun g hg => hout ?_
      obtain ⟨hop, hstation, hurgent, hcount, hrange, -⟩ := State.claimArgs_eq_some.mp hg
      rw [State.argOp_eq_some] at hop
      rw [State.argStation_eq_some] at hstation
      rw [State.argUrgent_eq_some] at hurgent
      rw [countInRange_iff, ← hop, ← hcount] at hrange
      have hbit := bit_le g.urgent
      have hcode : 1 ≤ g.op.code ∧ g.op.code ≤ 3 := by cases g.op <;> decide
      exact ⟨by omega, by omega, by omega, by omega, by omega, hrange⟩
    · obtain ⟨hop1, hop3, -, -, hpriority, hrange⟩ := hin
      obtain ⟨op, hop⟩ : ∃ op : Op, s.host.args[0].toNat / 256 % 16 = op.code := by
        rcases (by omega : s.host.args[0].toNat / 256 % 16 = 1 ∨ s.host.args[0].toNat / 256 % 16 = 2 ∨
          s.host.args[0].toNat / 256 % 16 = 3) with h | h | h
        · exact ⟨.read, h⟩
        · exact ⟨.write, h⟩
        · exact ⟨.control, h⟩
      obtain ⟨u, hu⟩ : ∃ u : Bool, s.host.args[0].toNat / 4096 % 4 = bit u := by
        rcases (by omega : s.host.args[0].toNat / 4096 % 4 = 0 ∨ s.host.args[0].toNat / 4096 % 4 = 1) with h | h
        · exact ⟨false, h⟩
        · exact ⟨true, h⟩
      rw [hop, ← countInRange_iff] at hrange
      have hargs : s.claimArgs = some ⟨op, a, u, s.host.args[1].toNat, s.argUnitAddress⟩ :=
        State.claimArgs_eq_some.mpr ⟨State.argOp_eq_some.mpr hop, State.argStation_eq_some.mpr ha.symm,
          State.argUrgent_eq_some.mpr hu, rfl, hrange, rfl⟩
      refine ⟨fun hoff => hexec.trans (congrArg _ (State.claim_of_offline hargs hoff)),
        fun hon hfull => hexec.trans (congrArg _ (State.claim_of_noSlot hargs hon (State.lowestFree_eq_none hfull))),
        fun hon hfree htwo hfew => ?_⟩
      obtain ⟨m, hm⟩ := State.lowestFree_isSome hfree
      have hwrite : op = .write := by
        cases op with
        | write => rfl
        | read => rw [hop] at htwo; cases htwo
        | control => rw [hop] at htwo; cases htwo
      subst hwrite
      exact hexec.trans (congrArg _ (State.claim_of_noPages hargs hon hm hfew))
  case number =>
    intro hge c hc
    simp only [List.mem_cons, List.not_mem_nil, or_false] at hc
    rcases hc with rfl | rfl | rfl <;> exact (next_taken s _ hheld).trans (congrArg _ (State.onSlot_of_ge hge _))
  case slot =>
    intro n hn
    have hissue := (next_taken s (fun s => s.onSlot s.issueSlot) hheld).trans
      (congrArg _ (State.onSlot_of_lt hn s.issueSlot))
    have habort := (next_taken s (fun s => s.onSlot s.abortSlot) hheld).trans
      (congrArg _ (State.onSlot_of_lt hn s.abortSlot))
    have hrelease := (next_taken s (fun s => s.onSlot s.releaseSlot) hheld).trans
      (congrArg _ (State.onSlot_of_lt hn s.releaseSlot))
    refine ⟨fun hnone c hc => ?_, fun x hx => ⟨fun h => hissue.trans (congrArg _ (State.issueSlot_refused hx h)),
      fun h ho => hissue.trans (congrArg _ (State.issueSlot_offline hx h ho)),
      fun h => habort.trans (congrArg _ (State.abortSlot_refused hx h)),
      fun t r f h => habort.trans (congrArg _ (State.abortSlot_already hx h)),
      fun h => hrelease.trans (congrArg _ (State.releaseSlot_unread hx h)),
      fun h hd => hrelease.trans (congrArg _ (State.releaseSlot_refused hx h hd))⟩⟩
    simp only [List.mem_cons, List.not_mem_nil, or_false] at hc
    rcases hc with rfl | rfl | rfl
    · exact hissue.trans (by simp only [State.issueSlot, hnone, State.result_eq])
    · exact habort.trans (by simp only [State.abortSlot, hnone, State.result_eq])
    · exact hrelease.trans (by simp only [State.releaseSlot, hnone, State.result_eq])

/-! ### The slot commands that are accepted -/

/-- The pages a claim takes read 0 and every other page is as before (R128). -/
theorem readByte_fillPages (ps : List Page) (m : Memory) (hm : Memory.wf m) (p : Page) (o : Nat) (ho : o < 64) :
    Memory.readByte (ps.foldl (fun m p => Memory.fillPage m p []) m) (pageAddress p o) =
      if p ∈ ps then 0 else Memory.readByte m (pageAddress p o) := by
  induction ps generalizing m with
  | nil => rfl
  | cons q qs ih =>
    rw [List.foldl_cons, ih _ (Memory.fillPage_wf m q [] hm)]
    by_cases hqs : p ∈ qs
    · simp only [hqs, List.mem_cons, or_true, if_true]
    · by_cases hq : p = q
      · subst hq
        simp only [hqs, List.mem_cons, true_or, if_true, if_false]
        rw [Memory.readByte_fillPage_in m p [] o hm ho]
        simp only [pageImage, List.take_nil, List.nil_append, List.getElem_replicate]
      · simp only [hqs, hq, List.mem_cons, or_self, if_false]
        exact Memory.readByte_fillPage_other m q p [] o ho hq

/-- Settles O18. -/
theorem claimTakesLowestFreeSlot : Obligations.ClaimTakesLowestFreeSlot := by
  intro s op a n count hheld hstation hop hpriority hcount hrange hon hfree hlowest hpages hwf k
  have hcode : s.host.args[0].toNat / 256 % 16 = op.code := hop.trans (by cases op <;> rfl)
  have hurgent : s.host.args[0].toNat / 4096 % 4 = bit (s.host.args[0].toNat / 4096 % 4 == 1) := by
    rcases (by omega : s.host.args[0].toNat / 4096 % 4 = 0 ∨ s.host.args[0].toNat / 4096 % 4 = 1) with h | h <;>
      rw [h] <;> rfl
  have hcountIn : countInRange op count = true := by cases op <;> simpa [countInRange] using hrange
  have hargs : s.claimArgs = some ⟨op, a, s.host.args[0].toNat / 4096 % 4 == 1, count, s.argUnitAddress⟩ :=
    State.claimArgs_eq_some.mpr ⟨State.argOp_eq_some.mpr hcode, State.argStation_eq_some.mpr hstation,
      State.argUrgent_eq_some.mpr hurgent, hcount, hcountIn, rfl⟩
  have hk : pagesClaimed ⟨op, a, s.host.args[0].toNat / 4096 % 4 == 1, count, s.argUnitAddress⟩ = k := by
    cases op <;> rfl
  have henough : k ≤ s.stage.free.length := by
    by_cases h : op = .write
    · simpa [k, h] using hpages h
    · simp [k, h]
  have hok := State.claim_of_ok hargs hon (State.lowestFree_eq_some hfree hlowest) (hk ▸ henough)
  rw [hk] at hok
  refine ⟨(s.stage.free.take k).foldl (fun m p => Memory.fillPage m p []) s.stage.mem,
    (next_taken s _ hheld).trans (congrArg _ (hok.trans ?_)), Memory.fillPages_wf _ _ hwf,
    fun p o ho => readByte_fillPages _ _ hwf p o ho⟩
  cases op <;> rfl

theorem State.issueSlot_of_prepared (hx : s.slots[n] = some x) (h : x.st = .prepared)
    (ho : s.stations[x.station].state ≠ .offline) :
    s.issueSlot n =
      (((s.setSlot n (some { x with st := .queued })).joinIssue n x.urgent).result .ok n.val).choose := by
  have hon : ¬ s.stations[x.station].isOffline = true := fun e => ho ((Station.isOffline_iff _).mp e)
  simp only [State.issueSlot, hx, h, hon]
  rfl

/-- Settles O19. -/
theorem issueQueuesAtTail : Obligations.IssueQueuesAtTail := by
  intro s n x hheld hn hx hst hon
  refine (next_taken s _ hheld).trans (congrArg _ ((State.onSlot_of_lt hn _).trans ?_))
  rw [State.issueSlot_of_prepared hx hst hon]
  cases x.urgent <;> rfl

/-- Settles O20, by the state of the slot. -/
theorem abortBySlotState : Obligations.AbortBySlotState := by
  intro s n x hheld hn hx
  have hexec := (next_taken s (fun s => s.onSlot s.abortSlot) hheld).trans
    (congrArg _ (State.onSlot_of_lt hn s.abortSlot))
  refine ⟨fun h => hexec.trans ?queued, fun t h => hexec.trans ?parked, fun t r h => hexec.trans ?connected⟩
  case queued =>
    simp only [State.abortSlot, hx, h]
    rw [State.enterDone_eq s n x _ _ _ hx (.inl rfl)]
    rfl
  case parked =>
    rcases h with ⟨d, h⟩ | h | ⟨r, h⟩ <;> simp only [State.abortSlot, hx, h] <;> rfl
  case connected =>
    simp only [State.abortSlot, hx, h]
    rfl

theorem State.releaseSlot_of_free (hx : s.slots[n] = some x)
    (h : x.st = .prepared ∨ (x.st.isDone = true ∧ x.st.isUnread = false)) :
    s.releaseSlot n = ((s.freeSlot n x).result .ok n.val).choose := by
  simp only [State.releaseSlot, hx]
  cases hs : x.st <;> simp_all [SlotState.isDone, SlotState.isUnread]

/-- Settles O21. -/
theorem releaseFreesSlot : Obligations.ReleaseFreesSlot := by
  intro s n x hheld hn hx h
  exact (next_taken s _ hheld).trans (congrArg _ ((State.onSlot_of_lt hn _).trans (State.releaseSlot_of_free hx h)))

/-! ### Station commands -/

theorem State.onStation_of_address {a : StationNo} (h : s.host.args[0].toNat % 256 = a.val + 1) (f : StationNo → State) :
    s.onStation f = f a := by
  simp only [State.onStation, State.argStation_eq_some.mpr h]

theorem State.onStation_of_outside (h : s.host.args[0].toNat % 256 = 0 ∨ 16 ≤ s.host.args[0].toNat % 256)
    (f : StationNo → State) : s.onStation f = s.answered .badParam 0 := by
  have hnone : s.argStation = none := stationAt_outside h
  simp only [State.onStation, hnone, State.result_eq]

theorem State.configInRange_iff :
    s.configInRange = true ↔ 1 ≤ s.host.args[1].toNat ∧ s.host.args[1].toNat ≤ 8 ∧ 1 ≤ s.host.args[2].toNat ∧
      s.host.args[2].toNat ≤ 4 ∧ 1 ≤ s.host.args[3].toNat := by
  simp only [State.configInRange, Bool.and_eq_true, decide_eq_true_eq, and_assoc]
  rfl

/-- Settles O22, check by check. -/
theorem stationOnAndConfig : Obligations.StationOnAndConfig := by
  refine ⟨fun s hheld => ⟨fun hout c hc => ?outside, fun a ha => ?on⟩, ?config⟩
  case outside =>
    simp only [List.mem_cons, List.not_mem_nil, or_false] at hc
    rcases hc with rfl | rfl | rfl <;>
      exact (next_taken s _ hheld).trans (congrArg _ (State.onStation_of_outside hout _))
  case on =>
    have hexec := (next_taken s (fun s => s.onStation s.stationOn) hheld).trans
      (congrArg _ (State.onStation_of_address ha s.stationOn))
    refine ⟨fun hoff => hexec.trans ?_, fun hon => hexec.trans ?_⟩
    · simp only [State.stationOn, (Station.isOffline_iff _).mpr hoff, if_true]
      rfl
    · have hno : ¬ s.stations[a].isOffline = true := fun e => hon ((Station.isOffline_iff _).mp e)
      simp only [State.stationOn, hno]
      rfl
  case config =>
    intro s a hheld ha inRange
    have hexec := (next_taken s (fun s => s.onStation s.stationConfig) hheld).trans
      (congrArg _ (State.onStation_of_address ha s.stationConfig))
    refine ⟨fun hout => hexec.trans ?_, fun hin hon => hexec.trans ?_, fun hin hoff => hexec.trans ?_⟩
    · have hno : ¬ s.configInRange = true := fun e => hout (State.configInRange_iff.mp e)
      simp only [State.stationConfig, hno]
      rfl
    · have hno : ¬ s.stations[a].isOffline = true := fun e => hon ((Station.isOffline_iff _).mp e)
      simp only [State.stationConfig, State.configInRange_iff.mpr hin, hno, if_true]
      rfl
    · simp only [State.stationConfig, State.configInRange_iff.mpr hin, (Station.isOffline_iff _).mpr hoff, if_true]
      rfl

/-- Settles O24. -/
theorem pollNowSetsRequest : Obligations.PollNowSetsRequest := fun s hheld => next_taken s _ hheld

/-! ### Resets -/

/-- Settles O26: every block as `State.softReset` sets it. -/
theorem softResetValues : Obligations.SoftResetValues := by
  intro s hheld
  refine ⟨_, next_taken s _ hheld, rfl, fun n => ?_, ?_, fun a => ?_, rfl, rfl, rfl, rfl, rfl, rfl⟩
  · exact Vector.getElem_replicate _
  · simp only [State.softReset, freeListAtReset]
  · exact Vector.getElem_map _ _

/-- Settles O27: every block as `State.hardwareReset` sets it. -/
theorem hardwareResetValues : Obligations.HardwareResetValues := by
  intro strap s
  refine ⟨⟨_, rfl, ?_, rfl, rfl, fun offset => rfl⟩, ?_⟩
  · simp only [State.hardwareReset, State.reset, idleLink]
  · simp only [exec, execResetRelease, State.hardwareReset, State.reset]
    rfl

/-- Settles O28. -/
theorem linkResetRunsToReady : Obligations.LinkResetRunsToReady := by
  intro s hheld
  refine ⟨fun h => (next_taken s _ hheld).trans ?_, fun h => (next_taken s _ hheld).trans ?_⟩
  · simp only [State.breakEnds, h]
    rfl
  · simp only [State.linkResetEnds, h, State.report_eq]
    rfl

end Sys2Proof.Machine
end

section
/-!
PROOF. STATION_OFF and LINK_RESET: both walk the slots in ascending number, end some of them and rewrite the others. The
walk is described once, by what ends a slot and what becomes of the rest.
-/
set_option Elab.async false

namespace Sys2Proof.Machine

/-! ### A walk over slots -/

/-- One slot of a walk: it enters DONE with the final status that `fin` gives its record, or is rewritten by `alt`. -/
def State.actOn (fin : Exchange → Option FinalStatus) (alt : Exchange → Exchange) (s : State) (n : SlotNo) : State :=
  match s.slots[n] with
  | none => s
  | some x =>
    match fin x with
    | some f => s.enterDone n f none []
    | none => s.setSlot n (some (alt x))

/-- What the walk makes of a slot record. -/
def afterWalk (fin : Exchange → Option FinalStatus) (alt : Exchange → Exchange) (x : Exchange) : Exchange :=
  match fin x with
  | some f => { x with st := .done f none true [] }
  | none => alt x

/-- The final status with which the walk ends a slot, if it does. -/
def State.endOf (s : State) (fin : Exchange → Option FinalStatus) (n : SlotNo) : Option FinalStatus := s.slots[n].bind fin

/-- The completion record of a slot that the walk ends. -/
def State.endRecord (s : State) (fin : Exchange → Option FinalStatus) (n : SlotNo) : Option EventRecord :=
  s.slots[n].bind fun x => (fin x).map fun f => completionRecord s n x f none

/-- A link operation whose cleanup entries bound to the slots of a property are unbound (R108). -/
def LinkOp.unbindAll (op : LinkOp) (p : SlotNo → Bool) : LinkOp :=
  match op with
  | .poll w => .poll { w with cleanup := w.cleanup.map fun e => if e.slot.any p then { e with slot := none } else e }
  | _ => op

/-- Whether the walk over a list ends a slot. -/
def State.endsIn (s : State) (fin : Exchange → Option FinalStatus) (l : List SlotNo) (n : SlotNo) : Bool :=
  l.contains n && (s.endOf fin n).isSome

/-- Whether an ended slot of a list holds a tag of a station. -/
def State.freesTag (s : State) (fin : Exchange → Option FinalStatus) (l : List SlotNo) (b : StationNo) (g : Tag) : Prop :=
  ∃ n ∈ l, ∃ x, s.slots[n] = some x ∧ fin x ≠ none ∧ x.station = b ∧ x.st.tag? = some g

/-- The lists of the arbiter without the slots of a property. -/
def Arbiter.withoutAll (g : Arbiter) (p : SlotNo → Bool) : Arbiter :=
  { g with
    level1 := g.level1.filter (!p ·), level0 := g.level0.filter (!p ·), abortList := g.abortList.filter (!p ·)
    poolList := g.poolList.filter (!p ·), recallList := g.recallList.filter (!p ·) }

/-- What a walk over a list of slots does, field by field. -/
structure Walked (fin : Exchange → Option FinalStatus) (alt : Exchange → Exchange) (s : State) (l : List SlotNo)
    (t : State) : Prop where
  slots : ∀ n : SlotNo, t.slots[n] = if n ∈ l then s.slots[n].map (afterWalk fin alt) else s.slots[n]
  events : t.events = { s.events with records := s.events.records ++ l.filterMap (s.endRecord fin) }
  stations : ∀ b : StationNo, t.stations[b] = { s.stations[b] with tagMap := t.stations[b].tagMap }
  freed : ∀ (b : StationNo) (g : Tag), s.freesTag fin l b g → t.stations[b].tagMap[g] = none
  kept : ∀ (b : StationNo) (g : Tag), ¬ s.freesTag fin l b g → t.stations[b].tagMap[g] = s.stations[b].tagMap[g]
  arb : t.arb = s.arb.withoutAll (s.endsIn fin l)
  park : t.park = { s.park with deadlines := s.park.deadlines.filter (!s.endsIn fin l ·) }
  link : t.link = { s.link with op := s.link.op.unbindAll (s.endsIn fin l) }
  host : t.host = s.host
  pages : t.stage.giveUp = s.stage.giveUp
  stage : (∀ x, fin x ≠ none → x.isConnectedRead = false) → t.stage = s.stage
  freeCount : t.freeCount = s.freeCount
  pending : t.pending = s.pending

section Walk

variable {fin : Exchange → Option FinalStatus} {alt : Exchange → Exchange} {s u t : State}

theorem Arbiter.withoutAll_false (g : Arbiter) {p : SlotNo → Bool} (h : ∀ n, p n = false) : g.withoutAll p = g := by
  simp [Arbiter.withoutAll, h]

theorem LinkOp.unbindAll_false (op : LinkOp) {p : SlotNo → Bool} (h : ∀ n, p n = false) : op.unbindAll p = op := by
  have hany (e : CleanupEntry) : e.slot.any p = false := by cases e.slot <;> simp [h]
  cases op <;> simp [LinkOp.unbindAll, hany]

theorem Arbiter.withoutAll_withoutAll (g : Arbiter) (p q : SlotNo → Bool) :
    (g.withoutAll p).withoutAll q = g.withoutAll (fun n => p n || q n) := by
  simp [Arbiter.withoutAll, List.filter_filter, Bool.not_or, Bool.and_comm]

theorem LinkOp.unbindAll_unbindAll (op : LinkOp) (p q : SlotNo → Bool) :
    (op.unbindAll p).unbindAll q = op.unbindAll (fun n => p n || q n) := by
  have hentry (e : CleanupEntry) :
      (if (if e.slot.any p then { e with slot := none } else e).slot.any q then
        { (if e.slot.any p then { e with slot := none } else e) with slot := none }
      else if e.slot.any p then { e with slot := none } else e) =
      if e.slot.any (fun n => p n || q n) then { e with slot := none } else e := by
    cases hs : e.slot with
    | none => simp [hs]
    | some n => cases hp : p n <;> cases hq : q n <;> simp [hs, hp, hq]
  cases op <;> simp only [LinkOp.unbindAll, List.map_map, LinkOp.poll.injEq, PollWindow.mk.injEq, true_and]
  exact List.map_congr_left fun e _ => hentry e

theorem Walked.nil : Walked fin alt s [] s where
  slots := by simp
  events := by simp
  stations _ := rfl
  freed := by rintro b g ⟨n, hn, -⟩; cases hn
  kept _ _ _ := rfl
  arb := (s.arb.withoutAll_false fun _ => rfl).symm
  park := by simp [State.endsIn]
  link := by simp only [s.link.op.unbindAll_false (p := s.endsIn fin []) fun _ => rfl]
  host := rfl
  pages := rfl
  stage _ := rfl
  freeCount := rfl
  pending := rfl

/-- Two walks over different slots, one after the other, are one walk. -/
theorem Walked.trans {n : SlotNo} {l : List SlotNo} (hn : n ∉ l) (h1 : Walked fin alt s [n] u)
    (h2 : Walked fin alt u l t) : Walked fin alt s (n :: l) t := by
  have hsame (m : SlotNo) (hm : m ∈ l) : u.slots[m] = s.slots[m] := by
    have hne : m ≠ n := fun h => hn (h ▸ hm)
    rw [h1.slots, if_neg (by simpa using hne)]
  have htime : u.park.timebase = s.park.timebase := by rw [h1.park]
  have hends (m : SlotNo) : (s.endsIn fin [n] m || u.endsIn fin l m) = s.endsIn fin (n :: l) m := by
    by_cases hm : m ∈ l
    · have hne : m ≠ n := fun h => hn (h ▸ hm)
      simp [State.endsIn, State.endOf, hm, hne, hsame m hm]
    · simp [State.endsIn, hm]
  have htags (b : StationNo) (g : Tag) :
      s.freesTag fin (n :: l) b g ↔ s.freesTag fin [n] b g ∨ u.freesTag fin l b g := by
    have hl : u.freesTag fin l b g ↔ s.freesTag fin l b g := by
      simp only [State.freesTag]
      exact exists_congr fun m => and_congr_right fun hm => by rw [hsame m hm]
    rw [hl]
    simp only [State.freesTag, List.mem_cons, List.not_mem_nil, or_false, or_and_right, exists_or]
  refine ⟨fun m => ?slots, ?events, fun b => ?stations, fun b g h => ?freed, fun b g h => ?kept, ?arb, ?park, ?link,
    h2.host.trans h1.host, h2.pages.trans h1.pages, fun h => (h2.stage h).trans (h1.stage h),
    h2.freeCount.trans h1.freeCount, h2.pending.trans h1.pending⟩
  case slots =>
    rw [h2.slots, h1.slots]
    by_cases hm : m ∈ l
    · have hne : m ≠ n := fun h => hn (h ▸ hm)
      simp [hm, hne]
    · by_cases hmn : m = n
      · subst hmn; simp [hm]
      · simp [hm, hmn]
  case events =>
    have hrecord : l.filterMap (u.endRecord fin) = l.filterMap (s.endRecord fin) :=
      List.filterMap_congr fun m hm => by
        simp only [State.endRecord, hsame m hm, completionRecord, State.stamp, htime]
    rw [h2.events, h1.events, hrecord, List.append_assoc, ← List.filterMap_append]
    rfl
  case stations => rw [h2.stations b, h1.stations b]
  case freed =>
    by_cases h' : u.freesTag fin l b g
    · exact h2.freed b g h'
    · rw [h2.kept b g h']
      exact h1.freed b g (((htags b g).mp h).resolve_right h')
  case kept =>
    rw [htags, not_or] at h
    rw [h2.kept b g h.2, h1.kept b g h.1]
  case arb => rw [h2.arb, h1.arb, Arbiter.withoutAll_withoutAll]; simp only [hends]
  case park =>
    rw [h2.park, h1.park]
    simp only [List.filter_filter, ← hends, Bool.not_or, Bool.and_comm]
  case link =>
    rw [h2.link, h1.link]
    simp only [LinkOp.unbindAll_unbindAll, hends]

/-- The tag map of a station after the tag of a slot has been freed. -/
theorem State.freeTagOf_tagMap (s : State) (x : Exchange) (b : StationNo) (g : Tag) :
    (s.freeTagOf x).stations[b].tagMap[g] =
      if x.station = b ∧ x.st.tag? = some g then none else s.stations[b].tagMap[g] := by
  unfold State.freeTagOf State.setTag
  cases ht : x.st.tag? with
  | none => simp
  | some t =>
    by_cases hb : x.station = b
    · subst hb
      by_cases hg : t = g
      · subst hg; simp
      · have hval : t.val ≠ g.val := fun h => hg (Fin.ext h)
        simp [hg, hval]
    · have hval : x.station.val ≠ b.val := fun h => hb (Fin.ext h)
      simp [hb, hval]

theorem State.freeTagOf_station (s : State) (x : Exchange) (b : StationNo) :
    (s.freeTagOf x).stations[b] = { s.stations[b] with tagMap := (s.freeTagOf x).stations[b].tagMap } := by
  unfold State.freeTagOf State.setTag
  cases ht : x.st.tag? with
  | none => rfl
  | some t =>
    by_cases hb : x.station = b
    · subst hb; simp
    · have hval : x.station.val ≠ b.val := fun h => hb (Fin.ext h)
      simp [hval]

theorem LinkOp.unbind_eq_unbindAll (op : LinkOp) (n : SlotNo) : op.unbind n = op.unbindAll (· == n) := by
  have hentry (e : CleanupEntry) : e.slot.any (· == n) = true ↔ e.slot = some n := by cases e.slot <;> simp
  cases op <;> simp only [LinkOp.unbind, LinkOp.unbindAll, hentry]

theorem Arbiter.without_eq_withoutAll (g : Arbiter) (n : SlotNo) : g.without n = g.withoutAll (· == n) := by
  simp only [Arbiter.without, Arbiter.withoutAll, ne_eq, decide_not, beq_eq_decide]

/-- One slot of a walk. -/
theorem Walked.one (n : SlotNo) : Walked fin alt s [n] (s.actOn fin alt n) := by
  have hother {m : SlotNo} {y : Option Exchange} (hm : m ≠ n) : (s.slots.set n y)[m] = s.slots[m] :=
    Vector.getElem_set_ne n.isLt m.isLt fun h => hm (Fin.ext h.symm)
  unfold State.actOn
  cases hx : s.slots[n] with
  | none =>
    have hno (m : SlotNo) : s.endsIn fin [n] m = false := by
      by_cases hm : m = n
      · subst hm; simp [State.endsIn, State.endOf, hx]
      · simp [State.endsIn, hm]
    refine ⟨fun m => ?_, by simp [State.endRecord, hx], fun _ => rfl, ?_, fun _ _ _ => rfl,
      (s.arb.withoutAll_false hno).symm, by simp [hno], by simp [LinkOp.unbindAll_false _ hno], rfl, rfl, fun _ => rfl,
      rfl, rfl⟩
    · by_cases hm : m = n
      · subst hm; simp only [hx]; simp
      · simp [hm]
    · rintro b g ⟨m, hm, x, hmx, -⟩
      rw [List.mem_singleton.mp hm, hx] at hmx
      cases hmx
  | some x =>
    simp only
    cases hf : fin x with
    | none =>
      have hno (m : SlotNo) : s.endsIn fin [n] m = false := by
        by_cases hm : m = n
        · subst hm; simp [State.endsIn, State.endOf, hx, hf]
        · simp [State.endsIn, hm]
      refine ⟨fun m => ?_, by simp [State.endRecord, hx, hf], fun _ => rfl, ?_, fun _ _ _ => rfl,
        (s.arb.withoutAll_false hno).symm, by simp [hno], by simp [LinkOp.unbindAll_false _ hno], rfl, rfl, fun _ => rfl,
        rfl, rfl⟩
      · by_cases hm : m = n
        · subst hm; simp only [hx, List.mem_singleton, if_true, Option.map_some, afterWalk, hf]; simp
        · simp only [List.mem_singleton, hm, if_false]; exact hother hm
      · rintro b g ⟨m, hm, y, hmx, hfin, -⟩
        rw [List.mem_singleton.mp hm, hx] at hmx
        cases hmx
        exact absurd hf hfin
    | some f =>
      have hyes (m : SlotNo) : s.endsIn fin [n] m = (m == n) := by
        by_cases hm : m = n
        · subst hm; simp [State.endsIn, State.endOf, hx, hf]
        · simp [State.endsIn, hm]
      have htags (b : StationNo) (g : Tag) : s.freesTag fin [n] b g ↔ x.station = b ∧ x.st.tag? = some g := by
        simp only [State.freesTag, List.mem_singleton, exists_eq_left, hx, Option.some.injEq]
        exact ⟨fun ⟨y, hy, _, h⟩ => hy ▸ h, fun h => ⟨x, rfl, by simp [hf], h⟩⟩
      show Walked fin alt s [n] (s.enterDone n f none [])
      rw [State.enterDone_spec s n x f none [] hx]
      refine ⟨fun m => ?_, by simp [State.endRecord, hx, hf], fun b => s.freeTagOf_station x b, fun b g h => ?_,
        fun b g h => ?_, ?_, ?_, ?_, rfl, ?_, fun h => ?_, rfl, rfl⟩
      · by_cases hm : m = n
        · subst hm
          simp only [hx, List.mem_singleton, if_true, Option.map_some, afterWalk, hf, ite_self]; simp
        · simp only [List.mem_singleton, hm, if_false]; exact hother hm
      · exact (s.freeTagOf_tagMap x b g).trans (if_pos ((htags b g).mp h))
      · exact (s.freeTagOf_tagMap x b g).trans (if_neg ((htags b g).not.mp h))
      · simp only [Arbiter.without_eq_withoutAll, funext hyes]
      · simp only [hyes, ne_eq, decide_not, beq_eq_decide]
      · simp only [LinkOp.unbind_eq_unbindAll, funext hyes]
      · cases x.isConnectedRead <;> simp [StageMem.giveUp]
      · simp only [h x (by simp [hf])]; rfl

/-- A walk over a list of slots, each of them once. -/
theorem Walked.foldl (l : List SlotNo) (hl : l.Nodup) (s : State) :
    Walked fin alt s l (l.foldl (State.actOn fin alt) s) := by
  induction l generalizing s with
  | nil => exact Walked.nil
  | cons n l ih =>
    rw [List.nodup_cons] at hl
    exact Walked.trans hl.1 (Walked.one n) (ih hl.2 _)

end Walk

/-! ### STATION_OFF (R24, R98) -/

/-- The final status with which the loss of a station ends a slot record, if it does (R24). -/
def lostFinal (a : StationNo) (x : Exchange) : Option FinalStatus :=
  if x.station = a then
    match x.st with
    | .queued => some .stationLost
    | .parkedStation _ _ => some .stationLost
    | .parkedPool _ => some .stationLost
    | .recalled _ _ => some .stationLost
    | .aborting _ f none => some f.final
    | _ => none
  else none

/-- A CONNECTED slot record of a lost station takes pending STATION_LOST if none is set (R24). -/
def lostPending (a : StationNo) (x : Exchange) : Exchange :=
  if x.station = a then
    match x.st with
    | .connected t r p => { x with st := .connected t r (some (p.getD .stationLost)) }
    | _ => x
  else x

theorem State.setSlot_self {s : State} {n : SlotNo} {x : Exchange} (hx : s.slots[n] = some x) :
    s.setSlot n (some x) = s := by
  have h : s.slots.set n s.slots[n] = s.slots := Vector.set_get s.slots n
  rw [State.setSlot, ← hx, h]

theorem State.loseSlot_eq (a : StationNo) (s : State) (n : SlotNo) :
    State.loseSlot a s n = s.actOn (lostFinal a) (lostPending a) n := by
  unfold State.loseSlot State.actOn lostFinal lostPending
  cases hx : s.slots[n] with
  | none => rfl
  | some x =>
    simp only
    by_cases ha : x.station = a
    · simp only [ha, if_true]
      cases hst : x.st with
      | aborting t f r => cases r with
        | none => rfl
        | some r => exact (State.setSlot_self hx).symm
      | prepared => exact (State.setSlot_self hx).symm
      | done f st u res => exact (State.setSlot_self hx).symm
      | _ => rfl
    · simp only [ha, if_false]
      exact (State.setSlot_self hx).symm

theorem State.lostBy_eq (a : StationNo) (s : State) (n : SlotNo) : s.lostBy a n = s.endOf (lostFinal a) n := by
  unfold State.lostBy State.endOf lostFinal
  cases s.slots[n] <;> rfl

theorem lostFinal_notConnected (a : StationNo) (x : Exchange) (h : lostFinal a x ≠ none) : x.isConnectedRead = false := by
  unfold lostFinal at h
  unfold Exchange.isConnectedRead
  cases x.op <;> cases hst : x.st <;> simp_all

theorem lostFinal_station (a : StationNo) (x : Exchange) (h : lostFinal a x ≠ none) : x.station = a := by
  unfold lostFinal at h
  by_contra hne
  exact h (if_neg hne)

/-- The station record that STATION_OFF leaves before its slots are walked. -/
def Station.switchedOff (st : Station) : Station := { st with state := .offline, missCount := 0, backoff := false }

theorem State.stationOff_eq (a : StationNo) (s : State) (h : s.stations[a].state ≠ .offline) :
    s.stationOff a =
      ((List.finRange 32).foldl (State.actOn (lostFinal a) (lostPending a)) (s.withStation a Station.switchedOff)).result
        .ok (stationValue a) := by
  have hno : ¬ s.stations[a].isOffline = true := fun e => h ((Station.isOffline_iff _).mp e)
  have hfun : State.loseSlot a = State.actOn (lostFinal a) (lostPending a) :=
    funext fun s => funext fun n => State.loseSlot_eq a s n
  rw [State.stationOff, if_neg hno, hfun]
  rfl

/-- Settles O23: the walk over all slots, with what the loss of the station makes of each. -/
theorem stationOffEndsItsSlots : Obligations.StationOffEndsItsSlots := by
  intro s a hheld ha
  have hexec := (next_taken s (fun s => s.onStation s.stationOff) hheld).trans
    (congrArg _ (State.onStation_of_address ha s.stationOff))
  refine ⟨fun hoff => hexec.trans ?already, fun hon => ⟨_, hexec.trans (congrArg _ (State.stationOff_eq a s hon)), ?_⟩⟩
  case already =>
    simp only [State.stationOff, (Station.isOffline_iff _).mpr hoff, if_true]
    rfl
  have hwalk := Walked.foldl (fin := lostFinal a) (alt := lostPending a) _ (List.nodup_finRange 32)
    (s.withStation a Station.switchedOff)
  generalize (List.finRange 32).foldl _ (s.withStation a Station.switchedOff) = t at hwalk
  have hends (n : SlotNo) : (s.withStation a Station.switchedOff).endsIn (lostFinal a) (List.finRange 32) n =
      !decide (s.lostBy a n = none) := by
    have hend : (s.withStation a Station.switchedOff).endOf (lostFinal a) n = s.lostBy a n := (s.lostBy_eq a n).symm
    simp only [State.endsIn, List.contains_eq_mem, List.mem_finRange, decide_true, Bool.true_and, hend]
    cases s.lostBy a n <;> rfl
  have hfrees (b : StationNo) (g : Tag) :
      (s.withStation a Station.switchedOff).freesTag (lostFinal a) (List.finRange 32) b g ↔
        b = a ∧ ∃ n : SlotNo, ∃ x, s.slots[n] = some x ∧ s.lostBy a n ≠ none ∧ x.st.tag? = some g := by
    simp only [State.freesTag, List.mem_finRange, true_and, State.withStation_slots]
    have hlost {n : SlotNo} {x : Exchange} (hx : s.slots[n] = some x) : s.lostBy a n = lostFinal a x := by
      rw [s.lostBy_eq, State.endOf, hx, Option.bind_some]
    constructor
    · rintro ⟨n, x, hx, hfin, hb, ht⟩
      exact ⟨hb ▸ lostFinal_station a x hfin, n, x, hx, hlost hx ▸ hfin, ht⟩
    · rintro ⟨rfl, n, x, hx, hfin, ht⟩
      rw [hlost hx] at hfin
      exact ⟨n, x, hx, hfin, lostFinal_station b x hfin, ht⟩
  refine ⟨fun n => ?slots, ?events, ?station, fun b hb => ?others, ?arb, ?park, fun hno => ?link, fun w hw => ?poll,
    ?host, hwalk.stage (lostFinal_notConnected a), hwalk.freeCount, hwalk.pending⟩
  case slots =>
    have hslot := hwalk.slots n
    rw [if_pos (List.mem_finRange n), State.withStation_slots] at hslot
    rw [State.result_slots, hslot, s.lostBy_eq, State.endOf]
    cases hx : s.slots[n] with
    | none => rfl
    | some x =>
      simp only [Option.map_some, Option.bind_some, afterWalk]
      cases hf : lostFinal a x with
      | some f => rfl
      | none =>
        simp only [lostPending]
        by_cases hst : x.station = a
        · rw [if_pos hst, if_pos hst]
          cases hs : x.st with
          | connected t r p => cases p <;> simp [← hs]
          | _ => rfl
        · rw [if_neg hst, if_neg hst]
  case events =>
    rw [State.result_events, hwalk.events]
    have hrecord : (s.withStation a Station.switchedOff).endRecord (lostFinal a) = fun n =>
        match s.slots[n], s.lostBy a n with
        | some x, some f => some
            { source := .slot n, kind := .completion, detail := .status f, value := some x.doneCount
              stationStatus := none, repeats := 0, alsoSeen := 0
              timestamp := s.park.timebase.extractLsb' 0 16 }
        | _, _ => none := by
      funext n
      rw [s.lostBy_eq, State.endOf, State.endRecord, State.withStation_slots]
      cases hx : s.slots[n] with
      | none => rfl
      | some x =>
        simp only [Option.bind_some]
        cases lostFinal a x <;> rfl
    rw [hrecord]
    rfl
  case station =>
    have hst := hwalk.stations a
    rw [State.withStation_get] at hst
    rw [State.result_stations]
    refine ⟨by rw [hst]; rfl, by rw [hst]; rfl, by rw [hst]; rfl, by rw [hst]; rfl, by rw [hst]; rfl, by rw [hst]; rfl,
      by rw [hst]; rfl, fun g => ?_⟩
    have hg := hfrees a g
    split
    · next h => exact hwalk.freed a g (hg.mpr ⟨rfl, h⟩)
    · next h =>
      rw [hwalk.kept a g fun hf => h (hg.mp hf).2, State.withStation_get]
      rfl
  case others =>
    have hsame : (s.withStation a Station.switchedOff).stations[b] = s.stations[b] :=
      s.withStation_get_other a b _ hb.symm
    have hst := hwalk.stations b
    rw [hsame] at hst
    have hmap : t.stations[b].tagMap = s.stations[b].tagMap := by
      refine Vector.ext fun i hi => ?_
      have hkept := hwalk.kept b ⟨i, hi⟩ fun hf => hb ((hfrees b ⟨i, hi⟩).mp hf).1
      rw [hsame] at hkept
      exact hkept
    rw [State.result_stations, hst, hmap]
  case arb =>
    rw [State.result_arb, hwalk.arb]
    simp only [Arbiter.withoutAll, hends, Bool.not_not, State.withStation_arb]
  case park =>
    rw [State.result_park, hwalk.park]
    simp only [hends, Bool.not_not, State.withStation_park]
  case link =>
    rw [State.result_link, hwalk.link, State.withStation_link]
    have hop : s.link.op.unbindAll ((s.withStation a Station.switchedOff).endsIn (lostFinal a) (List.finRange 32)) =
        s.link.op := by
      cases hop : s.link.op with
      | poll w => exact absurd hop (hno w)
      | _ => rfl
    rw [hop]
  case poll =>
    rw [State.result_link, hwalk.link, State.withStation_link, hw]
    have hentry (e : CleanupEntry) :
        e.slot.any ((s.withStation a Station.switchedOff).endsIn (lostFinal a) (List.finRange 32)) = true ↔
          ∃ n : SlotNo, e.slot = some n ∧ s.lostBy a n ≠ none := by
      cases e.slot <;> simp [hends]
    simp only [LinkOp.unbindAll, hentry]
  case host => exact congrArg (fun h : HostPort => ({ h with resultCode := .ok, resultValue := _ } : HostPort)) hwalk.host

/-! ### LINK_RESET (R27, R152) -/

/-- A link reset ends a slot record that holds a tag (R27). -/
def resetFinal (x : Exchange) : Option FinalStatus := if x.st.tag?.isSome then some .linkReset else none

theorem State.endByLinkReset_eq (s : State) (n : SlotNo) : s.endByLinkReset n = s.actOn resetFinal id n := by
  unfold State.endByLinkReset State.actOn State.holdsTag resetFinal
  cases hx : s.slots[n] with
  | none => rfl
  | some x =>
    by_cases htag : x.st.tag?.isSome = true
    · simp only [htag, if_true]
    · simp only [htag]
      exact (State.setSlot_self hx).symm

/-- The link at the start of a link reset's break. -/
def breakLink : LinkEngine :=
  { op := .resetBreak, turn := .nobody, replyTimer := none, sending := none, lateOpen := false }

/-- What a link reset does, from the walk that ends the slots that hold tags. -/
theorem State.beginLinkReset_eq (s : State) : ∃ t, Walked resetFinal id (s.withLink fun _ => breakLink) (List.finRange 32) t ∧
    s.beginLinkReset = { t.giveUpReserved with stations := t.stations.map Station.atLinkReset } := by
  have hfun : State.endByLinkReset = State.actOn resetFinal id :=
    funext fun s => funext fun n => State.endByLinkReset_eq s n
  refine ⟨(List.finRange 32).foldl (State.actOn resetFinal id) (s.withLink fun _ => breakLink),
    Walked.foldl _ (List.nodup_finRange 32) _, ?_⟩
  rw [State.beginLinkReset, hfun]
  generalize List.finRange 32 = l
  rfl

/-- Settles O25: the walk over all slots, then the reservations and the station records. -/
theorem linkResetBegins : Obligations.LinkResetBegins := by
  intro s hheld
  have hexec := next_taken s State.linkReset hheld
  refine ⟨fun h => hexec.trans ?refused, fun hbreak hquiet => ?begins⟩
  case refused => rcases h with h | h <;> simp only [State.linkReset, h, LinkOp.isResetting, if_true, State.result_eq]
  case begins =>
  have hno : ¬ s.link.op.isResetting = true := by
    cases hop : s.link.op with
    | resetBreak => exact absurd hop hbreak
    | resetQuiet => exact absurd hop hquiet
    | _ => exact Bool.false_ne_true
  have hreset : s.linkReset = s.beginLinkReset.result .ok 0 := if_neg hno
  obtain ⟨t, hwalk, heq⟩ := s.beginLinkReset_eq
  refine ⟨_, hexec.trans (congrArg _ (hreset.trans (congrArg (·.result .ok 0) heq))), ?_⟩
  have hends (n : SlotNo) : (!(s.withLink fun _ => breakLink).endsIn resetFinal (List.finRange 32) n) = s.tagFree n := by
    simp only [State.endsIn, List.contains_eq_mem, List.mem_finRange, decide_true, Bool.true_and, State.endOf,
      State.withLink_slots, State.tagFree]
    cases s.slots[n] with
    | none => rfl
    | some x =>
      simp only [Option.bind_some, resetFinal]
      cases x.st.tag? <;> rfl
  refine ⟨hwalk.link, fun n => ?slots, ?events, hwalk.pages, fun a => ?stations, ?arb, ?park, ?host, hwalk.freeCount,
    hwalk.pending⟩
  case slots =>
    have hslot := hwalk.slots n
    rw [if_pos (List.mem_finRange n), State.withLink_slots] at hslot
    refine hslot.trans ?_
    cases s.slots[n] with
    | none => rfl
    | some x =>
      simp only [Option.map_some, afterWalk, resetFinal]
      cases x.st.tag? <;> rfl
  case events =>
    refine hwalk.events.trans ?_
    have hrecord : (s.withLink fun _ => breakLink).endRecord resetFinal = fun n =>
        match s.slots[n] with
        | some x =>
          if x.st.tag?.isSome then some
            { source := .slot n, kind := .completion, detail := .status .linkReset, value := some x.doneCount
              stationStatus := none, repeats := 0, alsoSeen := 0
              timestamp := s.park.timebase.extractLsb' 0 16 }
          else none
        | none => none := by
      funext n
      rw [State.endRecord, State.withLink_slots]
      cases s.slots[n] with
      | none => rfl
      | some x =>
        simp only [Option.bind_some, resetFinal]
        cases x.st.tag?.isSome <;> rfl
    rw [hrecord]
    rfl
  case stations =>
    have hst : (t.stations.map Station.atLinkReset)[a] = t.stations[a].atLinkReset := Vector.getElem_map _ _
    refine hst.trans ?_
    rw [hwalk.stations a]
    rfl
  case arb =>
    refine hwalk.arb.trans ?_
    simp only [Arbiter.withoutAll, hends]
    rfl
  case park =>
    refine hwalk.park.trans ?_
    simp only [hends]
    rfl
  case host => exact congrArg (fun h : HostPort => ({ h with resultCode := .ok, resultValue := 0 } : HostPort)) hwalk.host

end Sys2Proof.Machine
end

section
/-!
PROOF. The Link Arbiter (chapter 6): what each grant leaves, for a slot that stands in the list of its state alone.
-/
set_option Elab.async false

namespace Sys2Proof.Machine

variable {s : State} {n : SlotNo} {x : Exchange} {t : Tag} {rest : List SlotNo}

/-! ### A slot that leaves its lists -/

theorem filter_ne_of_not_mem {l : List SlotNo} (h : n ∉ l) : l.filter (· ≠ n) = l := by
  rw [List.filter_eq_self]
  intro m hm
  exact decide_eq_true fun e => h (e ▸ hm)

theorem filter_ne_cons (h : n ∉ rest) : (n :: rest).filter (· ≠ n) = rest := by
  rw [List.filter_cons_of_neg (by simp), filter_ne_of_not_mem h]

/-- The six lists that slots wait in: the five of the arbiter, and the deadline list. -/
inductive Shelf where
  | level1 | level0 | abortVisit | poolWait | recalls | deadline
  deriving DecidableEq

/-- The list that a slot record's state puts it in, if any (R88, R112 to R115). -/
def Exchange.shelf (x : Exchange) : Option Shelf :=
  match x.st with
  | .queued => some (if x.urgent then .level1 else .level0)
  | .aborting _ _ none => some .abortVisit
  | .parkedPool _ => some .poolWait
  | .recalled _ _ => some .recalls
  | .parkedStation _ _ => some .deadline
  | _ => none

/-- The list of a name. -/
def State.shelf (s : State) : Shelf → List SlotNo
  | .level1 => s.arb.level1
  | .level0 => s.arb.level0
  | .abortVisit => s.arb.abortList
  | .poolWait => s.arb.poolList
  | .recalls => s.arb.recallList
  | .deadline => s.park.deadlines

/-- Whether a slot's record stands in a list by its state. -/
def State.belongs (s : State) (L : Shelf) (n : SlotNo) : Prop := ∃ x, s.slots[n] = some x ∧ x.shelf = some L

theorem State.belongs_of (hx : s.slots[n] = some x) {L : Shelf} : s.belongs L n ↔ x.shelf = some L := by
  simp [State.belongs, hx]

theorem State.not_belongs_of_free (hx : s.slots[n] = none) {L : Shelf} : ¬ s.belongs L n := by
  simp [State.belongs, hx]

/-- Whether a slot has the state of a list. -/
def State.onShelf (s : State) (L : Shelf) (n : SlotNo) : Bool :=
  match L with
  | .level1 => s.isQueued true n
  | .level0 => s.isQueued false n
  | .abortVisit => s.isAbortWaiting n
  | .poolWait => s.isPoolParked n
  | .recalls => s.isRecalled n
  | .deadline => s.isStationParked n

theorem State.onShelf_iff (L : Shelf) : s.onShelf L n = true ↔ s.belongs L n := by
  simp only [State.onShelf, State.isQueued, State.isAbortWaiting, State.isPoolParked, State.isRecalled,
    State.isStationParked, State.slotState, State.belongs]
  cases s.slots[n] with
  | none => cases L <;> simp
  | some x =>
    cases hst : x.st with
    | queued => cases L <;> cases hu : x.urgent <;> simp [Exchange.shelf, hst, hu]
    | aborting t f r => cases L <;> cases r <;> simp [Exchange.shelf, hst]
    | _ => cases L <;> simp [Exchange.shelf, hst]

/-- The lists fit exactly when each holds, once each, the slots that belong in it. -/
theorem State.listsFit_iff : s.listsFit ↔ ∀ L, (s.shelf L).Nodup ∧ ∀ n, n ∈ s.shelf L ↔ s.belongs L n := by
  have heach : s.listsFit ↔ ∀ L, holdsExactly (s.shelf L) (s.onShelf L) := by
    refine ⟨fun ⟨h1, h0, ha, hp, hr, hd⟩ L => ?_,
      fun h => ⟨h .level1, h .level0, h .abortVisit, h .poolWait, h .recalls, h .deadline⟩⟩
    cases L with
    | level1 => exact h1
    | level0 => exact h0
    | abortVisit => exact ha
    | poolWait => exact hp
    | recalls => exact hr
    | deadline => exact hd
  simp only [heach, holdsExactly, State.onShelf_iff]

/-- A slot leaves a list it is not in. -/
theorem State.filter_shelf_other (hfit : s.listsFit) (hx : s.slots[n] = some x) (L : Shelf) (h : x.shelf ≠ some L) :
    (s.shelf L).filter (· ≠ n) = s.shelf L :=
  filter_ne_of_not_mem fun hm => h ((State.belongs_of hx).mp (((State.listsFit_iff.mp hfit L).2 n).mp hm))

/-- The head of a list leaves it. -/
theorem State.filter_shelf_head (hfit : s.listsFit) (L : Shelf) (hl : s.shelf L = n :: rest) :
    (s.shelf L).filter (· ≠ n) = rest := by
  have hnodup := (State.listsFit_iff.mp hfit L).1
  rw [hl] at hnodup ⊢
  exact filter_ne_cons (List.nodup_cons.mp hnodup).1

/-! ### Abort visits and resumptions -/

/-- The grant of the abort-visit list's head, written out. -/
theorem State.grantVisit_eq (hfit : s.listsFit) (hx : s.slots[n] = some x) (hl : s.arb.abortList = n :: rest) {f : Fatal}
    {r : Option Nat} (hst : x.st = .aborting t f r) :
    s.grantVisit n = { s with
      slots := s.slots.set n (some { x with st := .aborting t f (some 0) })
      arb := { s.arb with abortList := rest }
      link := sendingLink (.abortVisit n s.host.retryLimit.toNat) (abortOf x.station t) } := by
  have hother (L : Shelf) (h : L ≠ .abortVisit) : (s.shelf L).filter (· ≠ n) = s.shelf L :=
    State.filter_shelf_other hfit hx L (by cases r <;> simp [Exchange.shelf, hst, h.symm])
  have h1 := hother .level1 (by simp)
  have h0 := hother .level0 (by simp)
  have hp := hother .poolWait (by simp)
  have hr := hother .recalls (by simp)
  have hd := hother .deadline (by simp)
  have ha := State.filter_shelf_head hfit .abortVisit hl
  simp only [State.shelf] at h1 h0 hp hr hd ha
  simp only [State.grantVisit, hx, hst, State.leaveLists, State.withArb, State.withPark, Arbiter.without, h1, h0, ha, hp,
    hr, hd]
  rfl

/-- The grant of a RECALLED slot at the head of the recall list, written out. -/
theorem State.grantResume_of_recalled (hfit : s.listsFit) (hx : s.slots[n] = some x) (hl : s.arb.recallList = n :: rest)
    {k : ParkReason} (hst : x.st = .recalled t k) :
    s.grantResume n = { s with
      slots := s.slots.set n (some { x with st := .connected t 0 none })
      arb := { s.arb with recallList := rest }
      link := sendingLink (.exchange (openedConnection n x s.host.retryLimit.toNat true)) (resumeOf x t) } := by
  have hother (L : Shelf) (h : L ≠ .recalls) : (s.shelf L).filter (· ≠ n) = s.shelf L :=
    State.filter_shelf_other hfit hx L (by simp [Exchange.shelf, hst, h.symm])
  have h1 := hother .level1 (by simp)
  have h0 := hother .level0 (by simp)
  have ha := hother .abortVisit (by simp)
  have hp := hother .poolWait (by simp)
  have hd := hother .deadline (by simp)
  have hr := State.filter_shelf_head hfit .recalls hl
  simp only [State.shelf] at h1 h0 hp hr hd ha
  simp only [State.grantResume, State.connect, hx, hst, State.leaveLists, State.withArb, State.withPark, Arbiter.without,
    h1, h0, ha, hp, hr, hd, openingFrame_eq]
  rfl

/-- The grant of a PARKED(POOL) slot at the head of the pool-wait list, written out. -/
theorem State.grantResume_of_pool (hfit : s.listsFit) (hx : s.slots[n] = some x) (hl : s.arb.poolList = n :: rest)
    (hst : x.st = .parkedPool t) :
    s.grantResume n = { s with
      slots := s.slots.set n (some { x with st := .connected t 0 none })
      arb := { s.arb with poolList := rest }
      link := sendingLink (.exchange (openedConnection n x s.host.retryLimit.toNat true)) (resumeOf x t) } := by
  have hother (L : Shelf) (h : L ≠ .poolWait) : (s.shelf L).filter (· ≠ n) = s.shelf L :=
    State.filter_shelf_other hfit hx L (by simp [Exchange.shelf, hst, h.symm])
  have h1 := hother .level1 (by simp)
  have h0 := hother .level0 (by simp)
  have ha := hother .abortVisit (by simp)
  have hr := hother .recalls (by simp)
  have hd := hother .deadline (by simp)
  have hp := State.filter_shelf_head hfit .poolWait hl
  simp only [State.shelf] at h1 h0 hp hr hd ha
  simp only [State.grantResume, State.connect, hx, hst, State.leaveLists, State.withArb, State.withPark, Arbiter.without,
    h1, h0, ha, hp, hr, hd, openingFrame_eq]
  rfl

/-! ### The order of the ranks (R117) -/

theorem State.grantFirst_of_visit (hl : s.arb.abortList = n :: rest) : s.grantFirst = s.grantVisit n := by
  simp only [State.grantFirst, hl]

theorem State.grantFirst_of_recall (ha : s.arb.abortList = []) (hl : s.arb.recallList = n :: rest) :
    s.grantFirst = s.grantResume n := by
  simp only [State.grantFirst, ha, hl]

theorem State.grantFirst_of_pool (ha : s.arb.abortList = []) (hr : s.arb.recallList = [])
    (hl : s.arb.poolList = n :: rest) (hfree : s.stage.free ≠ []) : s.grantFirst = s.grantResume n := by
  obtain ⟨p, ps, hp⟩ := List.exists_cons_of_ne_nil hfree
  simp only [State.grantFirst, ha, hr, hl, hp]

theorem State.grantFirst_of_lower (ha : s.arb.abortList = []) (hr : s.arb.recallList = [])
    (hpool : s.arb.poolList = [] ∨ s.stage.free = []) :
    s.grantFirst =
      if s.pollEligible then s.grantPoll else (s.issuePick.elim s fun p => s.grantCall p.1 p.2) := by
  have hrest : (match s.issuePick with | some (n, fairness) => s.grantCall n fairness | none => s) =
      s.issuePick.elim s fun p => s.grantCall p.1 p.2 := by cases s.issuePick <;> rfl
  rw [← hrest]
  simp only [State.grantFirst, ha, hr]
  rcases hpool with h | h
  · simp only [h] <;> rfl
  · cases hp : s.arb.poolList with
    | nil => rfl
    | cons m ms => simp only [h] <;> rfl

/-! ### Polls (R104, R105) -/

/-- Two bytes of a field, high byte first, are its 16 bits. -/
theorem append_bytes (m : Nat) : BitVec.ofNat 8 (m / 256) ++ BitVec.ofNat 8 m = BitVec.ofNat 16 m := by
  refine BitVec.eq_of_toNat_eq ?_
  rw [BitVec.toNat_append, BitVec.toNat_ofNat, BitVec.toNat_ofNat, BitVec.toNat_ofNat,
    ← Nat.shiftLeft_add_eq_or_of_lt (Nat.mod_lt _ (by decide)), Nat.shiftLeft_eq]
  omega

/-- The bits of a reply mask are its stations' addresses. -/
theorem testBit_maskBits (mask : List StationNo) (i : Nat) :
    (maskBits mask).testBit i = true ↔ ∃ a ∈ mask, a.val + 1 = i := by
  have hfold (l : List StationNo) (m : Nat) :
      (l.foldl (fun m a => m ||| 2 ^ (a.val + 1)) m).testBit i = true ↔ m.testBit i = true ∨ ∃ a ∈ l, a.val + 1 = i := by
    induction l generalizing m with
    | nil => simp
    | cons a l ih =>
      rw [List.foldl_cons, ih, Nat.testBit_or, Nat.testBit_two_pow, Bool.or_eq_true, decide_eq_true_eq, or_assoc]
      simp only [List.mem_cons, exists_eq_or_imp]
  rw [maskBits, hfold]
  simp

theorem State.replyMask_eq (s : State) :
    s.replyMask = (List.finRange 15).filter fun a => s.stations[a].state ≠ .offline := by
  simp only [State.replyMask, Station.isOffline, ne_eq, decide_not, beq_eq_decide]

/-- Settles O49, rank by rank. -/
theorem choiceRanksCandidates : Obligations.ChoiceRanksCandidates := by
  refine ⟨fun s n rest x t hidle henable hfit hx => ⟨fun f r hl hst => ?visit, fun ha h => ?resume⟩,
    fun s hidle henable ha hr hpool hpoll => ?poll⟩
  case visit =>
    rw [s.choose_of_enabled hidle henable, State.grantFirst_of_visit hl, State.grantVisit_eq hfit hx hl hst]
  case resume =>
    rw [s.choose_of_enabled hidle henable]
    rcases h with ⟨k, hl, hst⟩ | ⟨hr, hl, hfree, hst⟩
    · rw [State.grantFirst_of_recall ha hl, State.grantResume_of_recalled hfit hx hl hst]
      simp only [hl, reduceCtorEq, if_false]
    · rw [State.grantFirst_of_pool ha hr hl hfree, State.grantResume_of_pool hfit hx hl hst]
      simp only [hr, if_true]
  case poll =>
    have hgrant : s.choose = s.grantPoll := by
      rw [s.choose_of_enabled hidle henable, State.grantFirst_of_lower ha hr hpool,
        if_pos ((s.pollEligible_iff hr).mpr hpoll)]
    refine ⟨{ phase := .sending, mask := s.replyMask, left := s.replyMask, slotTime := 0, cleanup := [] },
      pollFrame s.replyMask, BitVec.ofNat 8 (maskBits s.replyMask), BitVec.ofNat 8 (maskBits s.replyMask / 256),
      hgrant, s.replyMask_eq, rfl, rfl, rfl, rfl, rfl, rfl, rfl, rfl, rfl, rfl, ?_, fun a => ?_⟩
    · rw [append_bytes, BitVec.getLsbD_ofNat, Bool.eq_false_iff]
      intro h
      obtain ⟨a, -, ha⟩ := (testBit_maskBits _ _).mp (Bool.and_elim_right h)
      omega
    · rw [append_bytes, BitVec.getLsbD_ofNat, decide_eq_true (by omega : a.val + 1 < 16), Bool.true_and,
        testBit_maskBits, s.replyMask_eq]
      simp only [List.mem_filter, List.mem_finRange, true_and, decide_eq_true_eq]
      exact ⟨fun ⟨b, hb, he⟩ => (Fin.ext (Nat.succ.inj he) : b = a) ▸ hb, fun h => ⟨a, h, rfl⟩⟩

/-! ### Issue picks (R119 to R121) -/

/-- The entries of a tag map in tag order. -/
theorem toList_eq_map_finRange {α : Type} {k : Nat} (v : Vector α k) : v.toList = (List.finRange k).map fun t => v[t] := by
  refine List.ext_getElem (by simp) fun i h1 h2 => ?_
  simp

theorem State.mayBeCalled_eq (s : State) : s.mayBeCalled = s.issueEligible := by
  funext n
  unfold State.mayBeCalled State.issueEligible
  cases hx : s.slots[n] with
  | none => rfl
  | some x =>
    have hheld : s.stations[x.station].tagsHeld =
        ((List.finRange 8).filter fun t => s.stations[x.station].tagMap[t].isSome).length := by
      rw [Station.tagsHeld, toList_eq_map_finRange, List.countP_map, List.countP_eq_length_filter]
      rfl
    simp only [Station.canBeCalled, hheld, Bool.decide_and, Bool.decide_or, beq_eq_decide, Bool.and_assoc]
    cases s.stations[x.station].backoff <;> rfl

theorem Station.lowestFreeTag_eq {st : Station} (ht : st.tagMap[t] = none) (hmin : ∀ u : Tag, u < t → st.tagMap[u] ≠ none) :
    st.lowestFreeTag = some t := by
  refine find?_finRange_eq_some (by simp only [ht, Option.isNone_none]) fun u hu => ?_
  rw [Option.isNone_eq_false_iff, Option.isSome_iff_ne_none]
  exact hmin u hu

/-- The grant of an issue pick, written out. -/
theorem State.grantCall_eq (hfit : s.listsFit) (ha : s.arb.abortList = []) (hr : s.arb.recallList = [])
    (hx : s.slots[n] = some x) (hst : x.st = .queued) (ht : s.stations[x.station].lowestFreeTag = some t)
    (counter : Nat) :
    s.grantCall n counter = { s with
      slots := s.slots.set n (some { x with st := .connected t 0 none })
      stations := s.stations.set x.station { s.stations[x.station] with
        tagMap := s.stations[x.station].tagMap.set t (some n) }
      arb := { s.arb with
        fairness := counter, level1 := s.arb.level1.filter (· ≠ n), level0 := s.arb.level0.filter (· ≠ n) }
      link := sendingLink (.exchange (openedConnection n x s.host.retryLimit.toNat false)) (callOf x t) } := by
  have hp := State.filter_shelf_other hfit hx .poolWait (by cases hu : x.urgent <;> simp [Exchange.shelf, hst, hu])
  have hd := State.filter_shelf_other hfit hx .deadline (by cases hu : x.urgent <;> simp [Exchange.shelf, hst, hu])
  simp only [State.shelf] at hp hd
  simp only [State.grantCall, State.connect, hx, hst, ht, State.leaveLists, State.withArb, State.withPark,
    State.setTag, State.withStation, Arbiter.without, ha, hr, List.filter_nil, hp, hd,
    openingFrame_eq]
  rfl

/-- Settles O50, from the pick that R120 names. -/
theorem issuePickIsFair : Obligations.IssuePickIsFair := by
  refine ⟨fun s n x t counter hidle henable hfit honly hx hst ht hmin hpick => ?pick,
    fun s hidle honly h1 h0 => ?nothing⟩
  case pick =>
    obtain ⟨ha, hr, hpool, hpoll⟩ := honly
    have hno : ¬ s.pollEligible = true := fun h => hpoll ((s.pollEligible_iff hr).mp h)
    have hissue : s.issuePick = some (n, counter) := by
      rw [s.mayBeCalled_eq] at hpick
      unfold State.issuePick Config.fairnessLimit
      rcases hpick with ⟨m, h1, h0, hf, rfl⟩ | ⟨m, h1, h0, hf, rfl⟩ | ⟨h1, h0, rfl⟩ | ⟨h1, h0, rfl⟩
      · simp only [h1, h0, hf, if_true]
      · simp only [h1, h0, Nat.not_lt.mpr hf, if_false]
      · simp only [h1, h0]
      · simp only [h1, h0]
    rw [s.choose_of_enabled hidle henable, State.grantFirst_of_lower ha hr hpool, if_neg hno, hissue]
    exact State.grantCall_eq hfit ha hr hx hst (Station.lowestFreeTag_eq ht hmin) counter
  case nothing =>
    obtain ⟨ha, hr, hpool, hpoll⟩ := honly
    have hno : ¬ s.pollEligible = true := fun h => hpoll ((s.pollEligible_iff hr).mp h)
    rw [s.mayBeCalled_eq] at h1 h0
    have hissue : s.issuePick = none := by simp only [State.issuePick, h1, h0]
    by_cases henable : s.host.linkEnable = true
    · rw [s.choose_of_enabled hidle henable, State.grantFirst_of_lower ha hr hpool, if_neg hno, hissue]
      rfl
    · exact s.choose_of_disabled (by simpa using henable)

end Sys2Proof.Machine
end

section
/-!
PROOF. What a choice of the arbiter can do, said once; the timebase with its deadline list, and the poll interval timer
(sections 4.6, 5.5 and 6.2).
-/
set_option Elab.async false

namespace Sys2Proof.Machine

variable {s : State} {n : SlotNo} {x : Exchange} {t : Tag}

/-! ### A choice of the arbiter -/

/-- The abort visit of an ABORTING slot begins. -/
def State.visit (s : State) (n : SlotNo) (x : Exchange) (t : Tag) (f : Fatal) : State :=
  (((s.leaveLists n).setSlot n (some { x with st := .aborting t f (some 0) })).setOp
    (.abortVisit n s.host.retryLimit.toNat)).send (abortFrame x.station t)

/-- A tag is bound to a QUEUED slot, and the slot connects by CALL. -/
def State.call (s : State) (n : SlotNo) (x : Exchange) (t : Tag) (fairness : Nat) : State :=
  ((s.withArb fun g => { g with fairness := fairness }).setTag x.station t (some n)).connect n x t false

/-- What a grant does on an idle link. -/
inductive Granted (s : State) : State → Prop where
  | poll : Granted s s.grantPoll
  | visit {n : SlotNo} {x : Exchange} {t : Tag} {f : Fatal} {r : Option Nat} (hx : s.slots[n] = some x)
      (hst : x.st = .aborting t f r) : Granted s (s.visit n x t f)
  | resume {n : SlotNo} {x : Exchange} {t : Tag} (hx : s.slots[n] = some x)
      (hst : (∃ k, x.st = .recalled t k) ∨ x.st = .parkedPool t) : Granted s (s.connect n x t true)
  | call {n : SlotNo} {x : Exchange} {t : Tag} {fairness : Nat} (hx : s.slots[n] = some x) (hst : x.st = .queued)
      (ht : s.stations[x.station].lowestFreeTag = some t) (hf : fairness ≤ 4) : Granted s (s.call n x t fairness)

theorem State.grantVisit_cases (s : State) (n : SlotNo) : s.grantVisit n = s ∨ Granted s (s.grantVisit n) := by
  unfold State.grantVisit
  split
  · next x hx =>
    split
    · next t f r hst => exact .inr (.visit hx hst)
    · exact .inl rfl
  · exact .inl rfl

theorem State.grantResume_cases (s : State) (n : SlotNo) : s.grantResume n = s ∨ Granted s (s.grantResume n) := by
  unfold State.grantResume
  split
  · next x hx =>
    split
    · next t k hst => exact .inr (.resume hx (.inl ⟨k, hst⟩))
    · next t hst => exact .inr (.resume hx (.inr hst))
    · exact .inl rfl
  · exact .inl rfl

theorem State.grantCall_cases (s : State) (n : SlotNo) {q : Nat} (hq : q ≤ 4) :
    s.grantCall n q = s ∨ Granted s (s.grantCall n q) := by
  unfold State.grantCall
  split
  · next x hx =>
    split
    · next t hst ht => exact .inr (.call hx hst ht hq)
    · exact .inl rfl
  · exact .inl rfl

/-- The fairness counter never passes its limit. -/
theorem State.issuePick_fairness {q : Nat} (h : s.issuePick = some (n, q)) : q ≤ 4 := by
  unfold State.issuePick Config.fairnessLimit at h
  split at h
  · split at h <;> cases h <;> omega
  · cases h; omega
  · cases h; omega
  · cases h

/-- A choice is one grant on an idle link, or nothing (R116, R117). -/
theorem State.choose_cases (s : State) : s.choose = s ∨ (s.link.op = .idle ∧ Granted s s.choose) := by
  by_cases hidle : s.link.op = .idle
  · by_cases henable : s.host.linkEnable = true
    · rw [s.choose_of_enabled hidle henable]
      rcases s.grantFirst_cases with h | ⟨n, h⟩ | ⟨n, h⟩ | h | ⟨n, q, hq, h⟩ <;> rw [h]
      · exact .inl rfl
      · exact (s.grantVisit_cases n).imp_right fun hg => ⟨hidle, hg⟩
      · exact (s.grantResume_cases n).imp_right fun hg => ⟨hidle, hg⟩
      · exact .inr ⟨hidle, .poll⟩
      · exact (s.grantCall_cases n (State.issuePick_fairness hq)).imp_right fun hg => ⟨hidle, hg⟩
    · exact .inl (s.choose_of_disabled (by simpa using henable))
  · exact .inl (s.choose_of_busy hidle)

/-- What a choice keeps, it is enough to see at each grant. -/
theorem State.choose_induct {P : State → Prop} (hs : P s) (hg : ∀ u, s.link.op = .idle → Granted s u → P u) :
    P s.choose := by
  rcases s.choose_cases with h | ⟨hidle, h⟩
  · rwa [h]
  · exact hg _ hidle h

theorem State.choose_pollTimer (s : State) : s.choose.arb.pollTimer = s.arb.pollTimer := by
  refine State.choose_induct (P := fun u => u.arb.pollTimer = s.arb.pollTimer) rfl fun u _ h => ?_
  cases h <;> rfl

theorem State.choose_timebase (s : State) : s.choose.park.timebase = s.park.timebase := by
  refine State.choose_induct (P := fun u => u.park.timebase = s.park.timebase) rfl fun u _ h => ?_
  cases h <;> rfl

/-! ### Deadlines that are reached -/

theorem State.deadlineReached_iff :
    s.deadlineReached n = true ↔ ∃ x t, s.slots[n] = some x ∧ x.st = .parkedStation t s.park.timebase := by
  unfold State.deadlineReached
  split
  · next x hx =>
    split
    · next t d hst =>
      rw [beq_iff_eq]
      refine ⟨fun h => ⟨x, t, hx, h ▸ hst⟩, fun ⟨y, u, hy, hyst⟩ => ?_⟩
      rw [← Option.some.inj (hx.symm.trans hy), hst] at hyst
      exact (SlotState.parkedStation.inj hyst).2
    · next hno =>
      refine ⟨nofun, fun ⟨y, u, hy, hyst⟩ => ?_⟩
      exact (hno u _ (Option.some.inj (hx.symm.trans hy) ▸ hyst)).elim
  · next hno => exact ⟨nofun, fun ⟨y, u, hy, _⟩ => by rw [hno] at hy; cases hy⟩

theorem State.headReached_eq_false
    (h : ∀ n rest x t, s.park.deadlines = n :: rest → s.slots[n] = some x → x.st ≠ .parkedStation t s.park.timebase) :
    s.headReached = false := by
  unfold State.headReached
  split
  · next n rest hd =>
    rw [Bool.eq_false_iff]
    intro hr
    obtain ⟨x, t, hx, hst⟩ := State.deadlineReached_iff.mp hr
    exact h n rest x t hd hx hst
  · rfl

theorem State.expire_eq {d : BitVec 32} (hx : s.slots[n] = some x) (hst : x.st = .parkedStation t d) :
    s.expire n = s.condemnedTo n x t .parkExpired := by
  simp only [State.expire, hx, hst, State.condemn_eq]

theorem State.pollTick_of_ends (h : s.arb.pollTimer ≤ 1) : s.pollTick = s.pollTimeOver.choose := by
  have hends : s.pollTimerEnds = true := decide_eq_true h
  rw [State.pollTick, if_pos hends, State.pollTimerExpires_eq]

theorem State.pollTick_of_runs (h : 2 ≤ s.arb.pollTimer) :
    s.pollTick = { s with arb := { s.arb with pollTimer := s.arb.pollTimer - 1 } } := by
  have hno : ¬ s.pollTimerEnds = true := by simp only [State.pollTimerEnds, decide_eq_true_eq]; omega
  rw [State.pollTick, if_neg hno]
  rfl

/-- Settles O29. -/
theorem timersCountAndExpire : Obligations.TimersCountAndExpire := by
  refine ⟨fun s hheld hnone => ?advance, fun s hheld => ⟨fun n rest x t hd hx hst => ?expiry, fun hnone => ?none,
    next_taken s _ hheld⟩⟩
  case advance =>
    have hhead : s.tick.headReached = false := State.headReached_eq_false hnone
    have hexec := next_taken s State.advance hheld
    have hadvance : s.advance = s.tick.pollTick := by simp [State.advance, hhead]
    rw [hadvance] at hexec
    exact ⟨fun h => hexec.trans (congrArg _ (State.pollTick_of_runs h)),
      fun h => hexec.trans (congrArg _ (State.pollTick_of_ends h))⟩
  case expiry =>
    refine (next_taken s _ hheld).trans (congrArg _ ?_)
    simp only [State.expireHead, hd, State.deadlineReached_iff.mpr ⟨x, t, hx, hst⟩, if_true, State.expire_eq hx hst]
  case none =>
    refine (next_taken s _ hheld).trans (congrArg _ ?_)
    have hhead := State.headReached_eq_false hnone
    unfold State.headReached at hhead
    unfold State.expireHead
    split
    · next n rest hd => simp only [hd] at hhead; simp [hhead]
    · rfl

/-! ### The expiries of one advance (R90) -/

/-- The slots of `due` stand at the head of the deadline list, with reached deadlines, and in no other list. -/
structure State.Due (s : State) (due later : List SlotNo) : Prop where
  deadlines : s.park.deadlines = due ++ later
  nodup : (due ++ later).Nodup
  parked : ∀ n ∈ due, ∃ x t, s.slots[n] = some x ∧ x.st = .parkedStation t s.park.timebase
  absent : ∀ n ∈ due, ∀ L, L ≠ .deadline → n ∉ s.shelf L

theorem State.Due.of_listsFit {due later : List SlotNo} (hfit : s.listsFit) (hd : s.park.deadlines = due ++ later)
    (hp : ∀ n ∈ due, ∃ x t, s.slots[n] = some x ∧ x.st = .parkedStation t s.park.timebase) : s.Due due later where
  deadlines := hd
  nodup := hd ▸ (State.listsFit_iff.mp hfit .deadline).1
  parked := hp
  absent := by
    intro n hn L hL hm
    obtain ⟨x, t, hx, hst⟩ := hp n hn
    have hbelongs := (State.belongs_of hx).mp (((State.listsFit_iff.mp hfit L).2 n).mp hm)
    simp only [Exchange.shelf, hst, Option.some.injEq] at hbelongs
    exact hL hbelongs.symm

/-- The first due slot expires: it leaves the deadline list and joins the abort-visit list, and no other list changes. -/
theorem State.Due.expire_first {due later : List SlotNo} (h : s.Due (n :: due) later) (hx : s.slots[n] = some x)
    {d : BitVec 32} (hst : x.st = .parkedStation t d) :
    s.expire n = { s with
      slots := s.slots.set n (some { x with st := .aborting t .parkExpired none })
      arb := { s.arb with abortList := s.arb.abortList ++ [n] }
      park := { s.park with deadlines := due ++ later } } := by
  have hleft (L : Shelf) (hL : L ≠ .deadline) : (s.shelf L).filter (· ≠ n) = s.shelf L :=
    filter_ne_of_not_mem (h.absent n List.mem_cons_self L hL)
  have h1 := hleft .level1 (by simp)
  have h0 := hleft .level0 (by simp)
  have ha := hleft .abortVisit (by simp)
  have hp := hleft .poolWait (by simp)
  have hr := hleft .recalls (by simp)
  simp only [State.shelf] at h1 h0 ha hp hr
  have hnodup := h.nodup
  rw [List.cons_append] at hnodup
  have hd : s.park.deadlines.filter (· ≠ n) = due ++ later := by
    rw [h.deadlines, List.cons_append]
    exact filter_ne_cons (List.nodup_cons.mp hnodup).1
  rw [State.expire_eq hx hst, State.condemnedTo, h1, h0, ha, hp, hr, hd]

/-- After the first due slot, the others are still due. -/
theorem State.Due.tail {due later : List SlotNo} (h : s.Due (n :: due) later) (hx : s.slots[n] = some x) {d : BitVec 32}
    (hst : x.st = .parkedStation t d) : (s.expire n).Due due later := by
  have hnodup := h.nodup
  rw [List.cons_append, List.nodup_cons] at hnodup
  have hother {m : SlotNo} (hm : m ∈ due) : m ≠ n := fun e => hnodup.1 (e ▸ List.mem_append_left _ hm)
  rw [h.expire_first hx hst]
  refine ⟨rfl, hnodup.2, fun m hm => ?_, fun m hm L hL => ?_⟩
  · obtain ⟨y, u, hy, hyst⟩ := h.parked m (List.mem_cons_of_mem n hm)
    refine ⟨y, u, ?_, hyst⟩
    rw [← hy]
    exact Vector.getElem_set_ne n.isLt m.isLt fun e => hother hm (Fin.ext e.symm)
  · have habsent := h.absent m (List.mem_cons_of_mem n hm) L hL
    cases L with
    | abortVisit =>
      intro hmem
      rcases List.mem_append.mp hmem with hmem | hmem
      · exact habsent hmem
      · exact hother hm (List.mem_singleton.mp hmem)
    | deadline => exact absurd rfl hL
    | _ => exact habsent

/-- The record of one slot once the due slots have expired. -/
theorem State.expiredTo_slot (due later : List SlotNo) (n : SlotNo) :
    (s.expiredTo due later).slots[n] =
      match s.slots[n] with
      | some x =>
        match x.st with
        | .parkedStation t _ => if n ∈ due then some { x with st := .aborting t .parkExpired none } else some x
        | _ => some x
      | none => none := Vector.getElem_ofFn _

theorem State.expiredTo_cons {due later : List SlotNo} (h : s.Due (n :: due) later) (hx : s.slots[n] = some x)
    {d : BitVec 32} (hst : x.st = .parkedStation t d) :
    (s.expire n).expiredTo due later = s.expiredTo (n :: due) later := by
  have hslots : ((s.expire n).expiredTo due later).slots = (s.expiredTo (n :: due) later).slots := by
    refine Vector.ext fun i hi => ?_
    have hl := State.expiredTo_slot (s := s.expire n) due later ⟨i, hi⟩
    have hr := State.expiredTo_slot (s := s) (n :: due) later ⟨i, hi⟩
    refine hl.trans (Eq.trans ?_ hr.symm)
    rw [h.expire_first hx hst]
    by_cases hin : (⟨i, hi⟩ : SlotNo) = n
    · subst hin
      simp only [hx, hst, List.mem_cons_self, if_true, Fin.getElem_fin, Vector.getElem_set_self]
    · have hne : n.val ≠ i := fun e => hin (Fin.ext e.symm)
      simp only [Fin.getElem_fin, Vector.getElem_set_ne n.isLt hi hne, List.mem_cons, hin, false_or]
  have hkept : (s.expire n).expiredTo due later = { s with
      slots := ((s.expire n).expiredTo due later).slots
      arb := { s.arb with abortList := s.arb.abortList ++ [n] ++ due }
      park := { s.park with deadlines := later } } := by
    rw [h.expire_first hx hst]
    rfl
  rw [hkept, hslots, List.append_assoc, List.singleton_append]
  rfl

/-- The head of a list whose deadline is not reached ends the walk over the deadlines. -/
theorem State.expireWhile_of_later {later : List SlotNo}
    (h : ∀ n rest x t, later = n :: rest → s.slots[n] = some x → x.st ≠ .parkedStation t s.park.timebase) :
    s.expireWhile later = s := by
  cases later with
  | nil => rfl
  | cons n rest =>
    have hno : ¬ s.deadlineReached n = true := fun hr => by
      obtain ⟨x, t, hx, hst⟩ := State.deadlineReached_iff.mp hr
      exact h n rest x t rfl hx hst
    rw [State.expireWhile, if_neg hno]

theorem State.expiredTo_nil {later : List SlotNo} (h : s.park.deadlines = later) : s.expiredTo [] later = s := by
  have hslots : (s.expiredTo [] later).slots = s.slots := by
    refine Vector.ext fun i hi => (State.expiredTo_slot (s := s) [] later ⟨i, hi⟩).trans ?_
    simp only [Fin.getElem_fin, List.not_mem_nil, if_false]
    cases s.slots[i] with
    | none => rfl
    | some y => cases hst : y.st <;> simp only [hst]
  have hkept : s.expiredTo [] later = { s with
      slots := (s.expiredTo [] later).slots
      arb := { s.arb with abortList := s.arb.abortList ++ [] }
      park := { s.park with deadlines := later } } := rfl
  rw [hkept, hslots, ← h, List.append_nil]

/-- Every due slot expires, in list order, and no later one. -/
theorem State.expireWhile_eq {due later : List SlotNo} (hdue : s.Due due later)
    (hlater : ∀ n rest x t, later = n :: rest → s.slots[n] = some x → x.st ≠ .parkedStation t s.park.timebase) :
    s.expireWhile (due ++ later) = s.expiredTo due later := by
  induction due generalizing s with
  | nil =>
    rw [List.nil_append, State.expireWhile_of_later hlater]
    exact (State.expiredTo_nil hdue.deadlines).symm
  | cons n due ih =>
    obtain ⟨x, t, hx, hst⟩ := hdue.parked n List.mem_cons_self
    have hreached := State.deadlineReached_iff.mpr ⟨x, t, hx, hst⟩
    have hnodup := hdue.nodup
    rw [List.cons_append, List.nodup_cons] at hnodup
    rw [List.cons_append, State.expireWhile, if_pos hreached, ih (hdue.tail hx hst),
      State.expiredTo_cons hdue hx hst]
    intro m rest y u hm hy hyst
    have hne : m ≠ n := fun e => hnodup.1 (e ▸ List.mem_append_right _ (hm ▸ List.mem_cons_self))
    rw [hdue.expire_first hx hst] at hy hyst
    refine hlater m rest y u hm ?_ hyst
    rw [← hy]
    exact (Vector.getElem_set_ne n.isLt m.isLt fun e => hne (Fin.ext e.symm)).symm

/-- A slot in the deadline list is not the one a grant takes, and stays in the list. -/
theorem Granted.deadlines (hfit : s.listsFit) {u : State} (h : Granted s u) :
    u.park.deadlines = s.park.deadlines ∧ (∀ n ∈ s.park.deadlines, u.slots[n] = s.slots[n]) ∧
      ∀ n L, n ∈ u.shelf L → n ∈ s.shelf L := by
  have hother {m : SlotNo} {y : Exchange} (hy : s.slots[m] = some y) (hm : y.shelf ≠ some .deadline) :
      s.park.deadlines.filter (· ≠ m) = s.park.deadlines ∧
        ∀ z : Option Exchange, ∀ n ∈ s.park.deadlines, (s.slots.set m z)[n] = s.slots[n] := by
    refine ⟨State.filter_shelf_other hfit hy .deadline hm, fun z n hn => ?_⟩
    refine Vector.getElem_set_ne m.isLt n.isLt fun e => hm ?_
    rw [← State.belongs_of hy, Fin.ext e]
    exact ((State.listsFit_iff.mp hfit .deadline).2 n).mp hn
  have hsub (m : SlotNo) (p : Nat) (n : SlotNo) (L : Shelf)
      (hm : n ∈ ((s.withArb fun g => { g with fairness := p }).leaveLists m).shelf L) : n ∈ s.shelf L := by
    cases L <;> exact (List.mem_filter.mp hm).1
  cases h with
  | poll => exact ⟨rfl, fun _ _ => rfl, fun n L h => by cases L <;> exact h⟩
  | @visit m y t f r hy hst =>
    have ho := hother hy (by cases r <;> simp [Exchange.shelf, hst])
    exact ⟨ho.1, ho.2 _, fun n L h => hsub m s.arb.fairness n L (by cases L <;> exact h)⟩
  | @resume m y t hy hst =>
    have ho := hother hy (by rcases hst with ⟨k, hst⟩ | hst <;> simp [Exchange.shelf, hst])
    exact ⟨ho.1, ho.2 _, fun n L h => hsub m s.arb.fairness n L (by cases L <;> exact h)⟩
  | @call m y t q hy hst =>
    have ho := hother hy (by cases hu : y.urgent <;> simp [Exchange.shelf, hst, hu])
    exact ⟨ho.1, ho.2 _, fun n L h => hsub m q n L (by cases L <;> exact h)⟩

/-- A choice leaves what is due, and what is not yet due, as it is. -/
theorem State.Due.choose {due later : List SlotNo} (hfit : s.listsFit) (h : s.Due due later)
    (hlater : ∀ n rest x t, later = n :: rest → s.slots[n] = some x → x.st ≠ .parkedStation t s.park.timebase) :
    s.choose.Due due later ∧
      ∀ n rest x t, later = n :: rest → s.choose.slots[n] = some x → x.st ≠ .parkedStation t s.choose.park.timebase := by
  rw [s.choose_timebase]
  have htime := s.choose_timebase
  rcases s.choose_cases with hs | ⟨-, hg⟩
  · rw [hs]; exact ⟨h, hlater⟩
  · obtain ⟨hd, hslots, hsub⟩ := hg.deadlines hfit
    refine ⟨⟨hd.trans h.deadlines, h.nodup, fun n hn => ?_, fun n hn L hL hm => h.absent n hn L hL (hsub n L hm)⟩,
      fun n rest x t hl hx => hlater n rest x t hl ?_⟩
    · rw [hslots n (h.deadlines ▸ List.mem_append_left _ hn), htime]
      exact h.parked n hn
    · rw [← hslots n (h.deadlines ▸ List.mem_append_right _ (hl ▸ List.mem_cons_self)), hx]

/-- Settles O30. -/
theorem reachedDeadlinesExpireInOrder : Obligations.ReachedDeadlinesExpireInOrder := by
  intro s due later hheld hfit hne hd hparked hlater ticked counted
  have hdue : ticked.Due due later := State.Due.of_listsFit (s := ticked) hfit hd hparked
  have hhead : s.tick.headReached = true := by
    obtain ⟨n, rest, rfl⟩ := List.exists_cons_of_ne_nil hne
    obtain ⟨x, t, hx, hst⟩ := hparked n List.mem_cons_self
    have hdl : s.tick.park.deadlines = n :: (rest ++ later) := hd
    unfold State.headReached
    simp only [hdl]
    exact State.deadlineReached_iff.mpr ⟨x, t, hx, hst⟩
  have htake : ticked.takeExpiries = (ticked.expiredTo due later).choose := by
    have hdl : ticked.park.deadlines = due ++ later := hd
    rw [State.takeExpiries, hdl, State.expireWhile_eq hdue hlater]
  have hexec := next_taken s State.advance hheld
  have hruns (h : 2 ≤ s.arb.pollTimer) : exec .timebaseAdvance s =
      .next { (ticked.expiredTo due later).choose with
        arb := { (ticked.expiredTo due later).choose.arb with pollTimer := s.arb.pollTimer - 1 } } := by
    have hends : s.pollTimerEnds = false := decide_eq_false (Nat.not_le.mpr h)
    have htimer : (ticked.expiredTo due later).choose.arb.pollTimer = s.arb.pollTimer := State.choose_pollTimer _
    have hadvance : s.advance = ticked.takeExpiries.pollTick := by
      simp only [State.advance, hhead, hends, Bool.and_false, if_true]
      rfl
    refine hexec.trans (congrArg _ ?_)
    rw [hadvance, htake, State.pollTick_of_runs (htimer ▸ h), htimer]
  refine ⟨hruns, fun h hrest => (hruns h).trans ?rests, fun n rest x t h hidle henable ha hcons hx hst => (hruns h).trans ?visit,
    fun h => ?expires⟩
  case rests =>
    have hchoose : (ticked.expiredTo due later).choose = ticked.expiredTo due later := State.choose_of_rests _ hrest
    rw [hchoose]
    rfl
  case visit =>
    subst hcons
    have hslot : (ticked.expiredTo (n :: rest) later).slots[n] =
        some { x with st := .aborting t .parkExpired none } := by
      rw [State.expiredTo_slot]
      have hx' : ticked.slots[n] = some x := hx
      simp only [hx', hst, List.mem_cons_self, if_true]
    have hleft (L : Shelf) (hL : L ≠ .deadline) : (s.shelf L).filter (· ≠ n) = s.shelf L :=
      filter_ne_of_not_mem (by
        have habsent := hdue.absent n List.mem_cons_self L hL
        cases L <;> exact habsent)
    have h1 := hleft .level1 (by simp)
    have h0 := hleft .level0 (by simp)
    have hp := hleft .poolWait (by simp)
    have hr := hleft .recalls (by simp)
    simp only [State.shelf] at h1 h0 hp hr
    have hnodup := hdue.nodup
    rw [List.cons_append, List.nodup_cons, List.mem_append, not_or] at hnodup
    have habort : (s.arb.abortList ++ n :: rest).filter (· ≠ n) = rest := by
      rw [ha, List.nil_append, filter_ne_cons hnodup.1.1]
    have hdead : later.filter (· ≠ n) = later := filter_ne_of_not_mem hnodup.1.2
    have hl : (ticked.expiredTo (n :: rest) later).arb.abortList = n :: rest := by
      show s.arb.abortList ++ n :: rest = _
      rw [ha, List.nil_append]
    have hchoose : (ticked.expiredTo (n :: rest) later).choose = (ticked.expiredTo (n :: rest) later).grantVisit n := by
      rw [State.choose_of_enabled (ticked.expiredTo (n :: rest) later) hidle henable, State.grantFirst_of_visit hl]
    rw [hchoose]
    simp only [State.grantVisit, hslot]
    simp only [State.leaveLists, State.withArb, State.withPark, State.setSlot, State.setOp_send_eq, Arbiter.without,
      State.expiredTo, ticked, h1, h0, hp, hr, habort, hdead]
    rfl
  case expires =>
    have hends : s.pollTimerEnds = true := decide_eq_true h
    have hcounted : counted.Due due later := ⟨hdue.deadlines, hdue.nodup, hdue.parked, hdue.absent⟩
    cases hfree : Config.pollTimerFirst s.freeCount with
    | false =>
      left
      have hadvance : s.advance = counted.takeExpiries.pollTick := by
        simp only [State.advance, hhead, hends, hfree, Bool.and_self, if_true]
        rfl
      have htimer : (counted.expiredTo due later).choose.arb.pollTimer = s.arb.pollTimer := State.choose_pollTimer _
      have hdl : counted.park.deadlines = due ++ later := hd
      refine hexec.trans (congrArg _ ?_)
      rw [hadvance, State.takeExpiries, hdl, State.expireWhile_eq hcounted hlater,
        State.pollTick_of_ends (htimer ▸ h)]
    | true =>
      right
      have hadvance : s.advance = counted.pollTick.takeExpiries := by
        simp only [State.advance, hhead, hends, hfree, Bool.and_self, if_true]
        rfl
      have hover : counted.pollTimeOver.Due due later :=
        ⟨hdue.deadlines, hdue.nodup, hdue.parked, fun n hn L hL => by
          have habsent := hdue.absent n hn L hL
          cases L <;> exact habsent⟩
      obtain ⟨hafter, hlater'⟩ := State.Due.choose (s := counted.pollTimeOver) hfit hover hlater
      refine hexec.trans (congrArg _ ?_)
      rw [hadvance, State.pollTick_of_ends (s := counted) h, State.takeExpiries, hafter.deadlines,
        State.expireWhile_eq hafter hlater']

end Sys2Proof.Machine
end

section
/-!
PROOF. What is left to do when an expected frame does not come: the reply timer and the reply slot (R36, R52, R58, R62,
R64, R67, R107, R109, R143, R147).
-/
set_option Elab.async false

namespace Sys2Proof.Machine

variable {s : State} {n : SlotNo} {x : Exchange} {t : Tag} {c : Connection}

/-! ### The turn returns to the head -/

/-- The head holds the turn again, and no reply timer runs (R34, R36). -/
def State.turnReturned (s : State) : State := { s with link := { s.link with turn := .head, replyTimer := none } }

theorem Connection.phase_eta {p : Phase} (h : c.phase = p) : { c with phase := p } = c := by subst h; rfl

/-- A grant point replaces the link as a whole. -/
theorem State.grantOf_link (l : LinkEngine) (c : Connection) (x : Exchange) (t : Tag) (r : Nat) :
    { s with link := l }.grantOf c x t r = s.grantOf c x t r := by
  unfold State.grantOf
  split <;> rfl

theorem State.grantOf_busy (c : Connection) (x : Exchange) (t : Tag) (r : Nat) : (s.grantOf c x t r).link.op ≠ .idle := by
  unfold State.grantOf
  dsimp only
  split
  · split <;> simp [sendingLink]
  · simp [sendingLink]

theorem State.takenUp_link (l : LinkEngine) (o : Option SlotNo) :
    { s with link := l }.takenUp o = { s.takenUp o with link := l } := by
  cases o with
  | none => rfl
  | some n =>
    simp only [State.takenUp]
    cases s.slots[n] with
    | none => rfl
    | some x => cases hst : x.st <;> simp only [hst]

/-- What follows a cleanup entry does not read the link that it replaces. -/
theorem State.cleanupGoesOn_link (l : LinkEngine) (w : PollWindow) (es : List CleanupEntry) :
    { s with link := l }.cleanupGoesOn w es = s.cleanupGoesOn w es := by
  cases es with
  | nil => rfl
  | cons e es => simp only [State.cleanupGoesOn, State.takenUp_link]

theorem State.cleanupGoesOn_list (w : PollWindow) (old es : List CleanupEntry) :
    s.cleanupGoesOn { w with cleanup := old } es = s.cleanupGoesOn w es := by
  cases es <;> rfl

/-- The wait for the first entry has ended, and the cleanup goes on with the rest (R109). -/
theorem State.nextCleanup_eq {w : PollWindow} {es : List CleanupEntry} (hop : s.link.op = .poll w)
    (hes : w.cleanup.tail = es) : s.nextCleanup.choose = s.cleanupGoesOn w es := by
  unfold State.nextCleanup
  rw [hop]
  exact (State.serveCleanup_eq s { w with cleanup := w.cleanup.tail }).trans (hes ▸ State.cleanupGoesOn_list w _ _)

/-! ### Endings -/

theorem State.finish_eq {f : FinalStatus} {st : Option Byte} {res : List Byte} (hx : s.slots[n] = some x)
    (hr : res = [] ∨ x.op = .control) :
    s.finish n f st res = { s.afterDone n x f st res with link := idleLink } := by
  rw [State.finish, State.enterDone_eq s n x f st res hx hr, State.endOp_eq]

theorem State.finishMissed_eq {f : FinalStatus} {a : StationNo} (hx : s.slots[n] = some x) :
    s.finishMissed n f a = { (s.afterDone n x f none []).missed a with link := idleLink } := by
  rw [State.finishMissed, State.enterDone_eq s n x f none [] hx (.inl rfl), State.miss_eq, State.endOp_eq]

theorem State.endAborting_eq {f : Fatal} {k : Option Nat} {st : Option Byte} (hx : s.slots[n] = some x)
    (hst : x.st = .aborting t f k) : s.endAborting n st = s.afterDone n x f.final st [] := by
  simp only [State.endAborting, hx, hst, State.enterDone_eq s n x f.final st [] hx (.inl rfl)]

/-- Once a slot has ended, a cleanup whose later entries do not name it goes on with them as they are (R108, R109). -/
theorem State.nextCleanup_afterDone {w : PollWindow} {e : CleanupEntry} {es : List CleanupEntry} {u : State}
    (hop : s.link.op = .poll w) (hw : w.cleanup = e :: es) (hes : ∀ d ∈ es, d.slot ≠ some n)
    {f : FinalStatus} {st : Option Byte} (hu : u.link = (s.afterDone n x f st []).link) :
    u.nextCleanup.choose = u.cleanupGoesOn w es := by
  have hmap : es.map (fun d => if d.slot = some n then { d with slot := none } else d) = es :=
    (List.map_congr_left fun d hd => if_neg (hes d hd)).trans (List.map_id' es)
  have hlink : u.link.op = .poll { w with cleanup :=
      (if e.slot = some n then { e with slot := none } else e) :: es } := by
    rw [hu]
    simp only [State.afterDone, hop, hw, List.map_cons, hmap]
  exact (State.nextCleanup_eq hlink rfl).trans (State.cleanupGoesOn_list w _ _)

/-! ### The recoveries -/

theorem State.abortRecovery_repeats {k : Carried} (h : k.retry < k.c.retryLimit) :
    s.abortRecovery k = { s with
      slots := s.slots.set k.c.slot (some { k.x with st := .connected k.tag (k.retry + 1) k.waiting })
      link := sendingLink (.exchange k.c) (abortOf k.x.station k.tag) } := if_pos h

theorem State.abortRecovery_ends {k : Carried} {f : Fatal} (h : k.c.retryLimit ≤ k.retry) (hw : k.waiting = some f)
    (hx : s.slots[k.c.slot] = some k.x) :
    s.abortRecovery k =
      { (s.afterDone k.c.slot k.x f.final none []).missed k.x.station with link := idleLink } := by
  rw [State.abortRecovery, if_neg (Nat.not_lt.mpr h), hw]
  exact State.finishMissed_eq hx

theorem State.visitRecovery_repeats {limit r : Nat} {f : Fatal} (hx : s.slots[n] = some x)
    (hst : x.st = .aborting t f (some r)) (h : r < limit) :
    s.visitRecovery n limit = { s with
      slots := s.slots.set n (some { x with st := .aborting t f (some (r + 1)) })
      link := sendingLink s.link.op (abortOf x.station t) } := by
  simp only [State.visitRecovery, hx, hst, if_pos h]
  rfl

theorem State.visitRecovery_ends {limit r : Nat} {f : Fatal} (hx : s.slots[n] = some x)
    (hst : x.st = .aborting t f (some r)) (h : limit ≤ r) :
    s.visitRecovery n limit = { (s.afterDone n x f.final none []).missed x.station with link := idleLink } := by
  simp only [State.visitRecovery, hx, hst, if_neg (Nat.not_lt.mpr h)]
  exact State.finishMissed_eq hx

theorem State.recover_of_lt {k : Carried} {g : State → Carried → State} (h : k.retry < k.c.retryLimit) :
    s.recover k g = g s { k with retry := k.retry + 1 } := if_pos h

theorem State.recover_of_ge {k : Carried} {g : State → Carried → State} (h : k.c.retryLimit ≤ k.retry) :
    s.recover k g = s.exhausted k := if_neg (Nat.not_lt.mpr h)

/-! ### REPLY_TIMER_EXPIRY -/

/-- The reply timer of a connection runs out. -/
theorem State.replyTimeout_connection {r : Nat} {p : Option Fatal} {b : Byte} (hop : s.link.op = .exchange c)
    (hx : s.slots[c.slot] = some x) (hst : x.st = .connected t r p) (hb : s.link.replyTimer = some b) :
    s.replyTimeout = (s.turnReturned.connectionTimeout ⟨c, x, t, r, p⟩).choose.afterExpiry := by
  have hk : s.turnReturned.carried = some ⟨c, x, t, r, p⟩ := State.carried_of s.turnReturned c x t r p hop hx hst
  have hback : s.withLink (fun l => { l with turn := .head, replyTimer := none }) = s.turnReturned := rfl
  have hop' : s.turnReturned.link.op = .exchange c := hop
  simp only [State.replyTimeout, hb, hback, hop', hk, State.openLate_eq]

theorem State.replyTimeout_visit {limit : Nat} {b : Byte} (hop : s.link.op = .abortVisit n limit)
    (hb : s.link.replyTimer = some b) :
    s.replyTimeout = (s.turnReturned.visitRecovery n limit).choose.afterExpiry := by
  have hback : s.withLink (fun l => { l with turn := .head, replyTimer := none }) = s.turnReturned := rfl
  have hop' : s.turnReturned.link.op = .abortVisit n limit := hop
  simp only [State.replyTimeout, hb, hback, hop', State.openLate_eq]

theorem State.replyTimeout_cleanup {w : PollWindow} {b : Byte} (hop : s.link.op = .poll w)
    (hb : s.link.replyTimer = some b) :
    s.replyTimeout = (s.turnReturned.cleanupTimeout w).choose.afterExpiry := by
  have hback : s.withLink (fun l => { l with turn := .head, replyTimer := none }) = s.turnReturned := rfl
  have hop' : s.turnReturned.link.op = .poll w := hop
  simp only [State.replyTimeout, hb, hback, hop', State.openLate_eq]

/-- Settles O31. -/
theorem openingTimeoutResendsOrEnds : Obligations.OpeningTimeoutResendsOrEnds := by
  intro s c x t r b ⟨hheld, hop, _, _, hx, hst, habort⟩ hb hphase
  have hexec := (next_taken s State.replyTimeout hheld).trans
    (congrArg _ (State.replyTimeout_connection hop hx hst hb))
  have hrun : s.turnReturned.connectionTimeout ⟨c, x, t, r, none⟩ =
      if r < c.retryLimit then
        (s.turnReturned.carry ⟨c, x, t, r + 1, none⟩).send (openingFrame c.resumed x t)
      else s.turnReturned.finishMissed c.slot .noAnswer x.station := by
    simp [State.connectionTimeout, habort, hphase]
  rw [hrun] at hexec
  refine ⟨fun h => hexec.trans (congrArg _ ?_), fun h => hexec.trans (congrArg _ ?_)⟩
  · rw [if_pos h, openingFrame_eq, State.choose_of_busy _ (by simp [State.send, State.carry, State.setOp, State.withLink])]
    rfl
  · rw [if_neg (Nat.not_lt.mpr h), State.finishMissed_eq (s := s.turnReturned) hx]
    rfl

/-- Settles O32. -/
theorem dataPhaseTimeoutRecoversOrAborts : Obligations.DataPhaseTimeoutRecoversOrAborts := by
  intro s c x t r p b ⟨hheld, hop, _, _, hx, hst, habort⟩ hb
  have hexec := (next_taken s State.replyTimeout hheld).trans
    (congrArg _ (State.replyTimeout_connection hop hx hst hb))
  refine ⟨fun hp hr => ⟨fun hphase => ?closing, fun credit hphase hwrite hcredit hrange hcount => ?burst,
    fun hphase hread => ?grant⟩, fun hp hr hphase => ?exhausted, fun q hp => ?pending⟩ <;> subst hp <;>
    refine hexec.trans (congrArg _ (congrArg State.afterExpiry ?_))
  case closing =>
    have hrun : s.turnReturned.connectionTimeout ⟨c, x, t, r, none⟩ =
        s.turnReturned.sendClosingAck ⟨c, x, t, r + 1, none⟩ := by
      simp [State.connectionTimeout, habort, hphase, State.recover, hr]
    rw [hrun, State.choose_of_busy _ (by simp [State.sendClosingAck, State.send, State.carry, State.setOp, State.withLink])]
    simp only [State.sendClosingAck, Connection.phase_eta hphase, ackFrame_eq]
    rfl
  case burst =>
    have hrun : s.turnReturned.connectionTimeout ⟨c, x, t, r, none⟩ =
        s.turnReturned.startBurst ⟨c, x, t, r + 1, none⟩ := by
      simp [State.connectionTimeout, habort, hphase, hwrite, State.recover, hr]
    rw [hrun, State.startBurst_eq _ _ credit hwrite hrange hcredit hcount rfl]
    exact State.choose_of_busy _ (by simp [State.burstFrom, sendingLink])
  case grant =>
    have hrun : s.turnReturned.connectionTimeout ⟨c, x, t, r, none⟩ =
        s.turnReturned.grantPoint ⟨c, x, t, r + 1, none⟩ := by
      simp [State.connectionTimeout, habort, hphase, hread, State.recover, hr]
    rw [hrun, State.grantPoint_eq _ _ hread rfl, State.choose_of_busy _ (State.grantOf_busy _ _ _ _)]
    exact State.grantOf_link _ _ _ _ _
  case exhausted =>
    have hrun : s.turnReturned.connectionTimeout ⟨c, x, t, r, none⟩ = s.turnReturned.exhausted ⟨c, x, t, r, none⟩ := by
      rcases hphase with hphase | ⟨hphase, hcontrol⟩
      · simp [State.connectionTimeout, habort, hphase, State.recover, hr]
      · cases hx : x.op with
        | control => exact absurd hx hcontrol
        | read => simp [State.connectionTimeout, habort, hphase, hx, State.recover, hr]
        | write => simp [State.connectionTimeout, habort, hphase, hx, State.recover, hr]
    rw [hrun, State.exhausted_eq _ _ rfl]
    exact State.choose_of_busy _ (by simp [State.abortPhaseOf, sendingLink])
  case pending =>
    have hrun : s.turnReturned.connectionTimeout ⟨c, x, t, r, some q⟩ =
        s.turnReturned.enterAbortPhase ⟨c, x, t, r, some q⟩ := by
      simp [State.connectionTimeout, habort]
    rw [hrun, State.enterAbortPhase_eq _ _ q rfl]
    exact State.choose_of_busy _ (by simp [State.abortPhaseOf, sendingLink])

/-- Settles O33. -/
theorem unansweredAbortRepeatsThenEnds : Obligations.UnansweredAbortRepeatsThenEnds := by
  intro s x t f r b hheld hb _
  refine ⟨fun c hop hx hst habort => ?connection, fun n limit hop hx hst => ?visit, fun w e es hop hw => ?cleanup⟩
  case connection =>
    have hexec := (next_taken s State.replyTimeout hheld).trans
      (congrArg _ (State.replyTimeout_connection hop hx hst hb))
    have hrun : s.turnReturned.connectionTimeout ⟨c, x, t, r, some f⟩ =
        s.turnReturned.abortRecovery ⟨c, x, t, r, some f⟩ := if_pos habort
    rw [hrun] at hexec
    refine ⟨fun h => hexec.trans (congrArg _ ?_), fun h => hexec.trans (congrArg _ ?_)⟩
    · rw [State.abortRecovery_repeats h, State.choose_of_busy _ (by simp [sendingLink])]
      rfl
    · rw [State.abortRecovery_ends (s := s.turnReturned) (k := ⟨c, x, t, r, some f⟩) h rfl hx]
      rfl
  case visit =>
    have hexec := (next_taken s State.replyTimeout hheld).trans (congrArg _ (State.replyTimeout_visit hop hb))
    refine ⟨fun h => hexec.trans (congrArg _ ?_), fun h => hexec.trans (congrArg _ ?_)⟩
    · have hop' : s.turnReturned.link.op = .abortVisit n limit := hop
      rw [State.visitRecovery_repeats (s := s.turnReturned) hx hst h, hop',
        State.choose_of_busy _ (by simp [sendingLink])]
      rfl
    · rw [State.visitRecovery_ends (s := s.turnReturned) hx hst h]
      rfl
  case cleanup =>
    have hexec := (next_taken s State.replyTimeout hheld).trans (congrArg _ (State.replyTimeout_cleanup hop hb))
    refine ⟨fun he => hexec.trans (congrArg _ ?_), fun n k he hx hst hes => hexec.trans (congrArg _ ?_)⟩
    · have hrun : s.turnReturned.cleanupTimeout w = (s.turnReturned.missed e.station).nextCleanup := by
        simp only [State.cleanupTimeout, hw, he, State.miss_eq]
      rw [hrun, State.nextCleanup_eq (s := s.turnReturned.missed e.station) (es := es) hop (by rw [hw]; rfl)]
      exact congrArg _ (State.cleanupGoesOn_link (s := s.missed e.station) _ w es)
    · have hrun : s.turnReturned.cleanupTimeout w =
          ((s.turnReturned.afterDone n x f.final none []).missed e.station).nextCleanup := by
        simp only [State.cleanupTimeout, hw, he, State.miss_eq,
          State.endAborting_eq (s := s.turnReturned) (st := none) hx hst]
      rw [hrun, State.nextCleanup_afterDone (s := s.turnReturned) (x := x) (f := f.final) (st := none)
        (u := (s.turnReturned.afterDone n x f.final none []).missed e.station) hop hw hes rfl]
      exact congrArg _ (State.cleanupGoesOn_link
        (s := (s.afterDone n x f.final none []).missed e.station) _ w es)

/-! ### REPLY_SLOT_TIMEOUT -/

/-- Settles O34. -/
theorem replySlotTimeoutCountsMiss : Obligations.ReplySlotTimeoutCountsMiss := by
  intro s w a hheld hop hturn
  have hexec (rest : List StationNo) (hl : w.left = a :: rest) :
      exec .replySlotTimeout s = .next ((s.missed a).slotGoesOn w rest).afterExpiry := by
    refine (next_taken s State.replySlotTimeout hheld).trans (congrArg _ ?_)
    have hop' : (s.missed a).link.op = .poll w := hop
    simp only [State.replySlotTimeout, hturn, State.miss_eq, State.openLate_eq,
      State.endReplySlot_eq _ w a rest hop' hl]
  exact ⟨fun b rest hl => hexec (b :: rest) hl, fun hl => hexec [] hl⟩

end Sys2Proof.Machine
end

section
/-!
PROOF. Frames at the receiver (R29, R30, R34, R36, R37): which frames are taken, what an accepted frame does to the turn,
and what a frame that counts for the turn only does. Every receive row is one of `ReceiveRow`.
-/
set_option Elab.async false

namespace Sys2Proof.Machine

variable {s : State} {n : SlotNo} {x : Exchange} {t : Tag} {c : Connection} {a : StationNo} {f : Received} {i : Instr}
  {k : FrameKind} {phase : State → State}

/-! ### The receive rows -/

/-- The receive rows of a frame: its kind, and what it means once it is accepted. -/
inductive ReceiveRow (f : Received) : Instr → FrameKind → (State → State) → Prop where
  | accept : ReceiveRow f (.acceptReceived f) .accept (·.inOperation (State.normalAccept f.toFrameBody))
  | refuse : ReceiveRow f (.refuseReceived f) .refuse (State.takeRefuse f.toFrameBody)
  | defer : ReceiveRow f (.deferReceived f) .defer (·.inOperation (State.normalDefer f.toFrameBody))
  | close : ReceiveRow f (.closeReceived f) .close (State.takeClose f.toFrameBody)
  | ack : ReceiveRow f (.ackReceived f) .ack (·.inOperation (State.normalAck f.toFrameBody))
  | data : ReceiveRow f (.dataReceived f) .data (·.inOperation (State.normalData f.toFrameBody))
  | reply : ReceiveRow f (.replyReceived f) .reply (State.takeReply f.toFrameBody)
  | headOnly (k : HeadOnlyKind) : ReceiveRow f (.headOnlyKindReceived k f) k.kind (·.inOperation State.protocolError)

theorem receiveRow_of_mem {k : HeadOnlyKind}
    (h : i ∈ [Instr.acceptReceived f, .refuseReceived f, .deferReceived f, .closeReceived f, .ackReceived f,
      .dataReceived f, .replyReceived f, .headOnlyKindReceived k f]) : ∃ kind phase, ReceiveRow f i kind phase := by
  simp only [List.mem_cons, List.not_mem_nil, or_false] at h
  rcases h with rfl | rfl | rfl | rfl | rfl | rfl | rfl | rfl
  · exact ⟨_, _, .accept⟩
  · exact ⟨_, _, .refuse⟩
  · exact ⟨_, _, .defer⟩
  · exact ⟨_, _, .close⟩
  · exact ⟨_, _, .ack⟩
  · exact ⟨_, _, .data⟩
  · exact ⟨_, _, .reply⟩
  · exact ⟨_, _, .headOnly k⟩

theorem ReceiveRow.exec_eq (h : ReceiveRow f i k phase) (hheld : s.host.held = false) :
    exec i s = .next (s.receive { kind := k, body := f.toFrameBody } f.withExpiry phase) := by
  cases h <;> exact next_taken s _ hheld

theorem ReceiveRow.kind_eq_reply (h : ReceiveRow f i k phase) : k = .reply ↔ i = .replyReceived f := by
  cases h with
  | headOnly k => cases k <;> simp [HeadOnlyKind.kind]
  | _ => simp

theorem ReceiveRow.kind_eq_data (h : ReceiveRow f i k phase) : k = .data ↔ i = .dataReceived f := by
  cases h with
  | headOnly k => cases k <;> simp [HeadOnlyKind.kind]
  | _ => simp

/-- A frame leaves the turn with the station exactly when it is DATA with TURN and LAST clear (R34). -/
theorem ReceiveRow.returnsTurn_eq_false (h : ReceiveRow f i k phase) :
    returnsTurn { kind := k, body := f.toFrameBody } = false ↔
      i = .dataReceived f ∧ f.turn = false ∧ f.last = false := by
  rw [← h.kind_eq_data]
  cases k <;> simp [returnsTurn]

/-! ### Which frames are taken -/

theorem State.acceptedFrom_of_station {g : Frame} (hturn : s.link.turn = .station a) (haddr : g.body.address = addressOf a)
    (htag : g.kind = .reply ∨ s.concernedTag = some g.body.tag) : s.acceptedFrom g = some a := by
  simp only [State.acceptedFrom, hturn, haddr, true_and, if_pos htag]

theorem State.receive_of_unheard {g : Frame} {together : Bool} (h : ¬ s.hears together) :
    s.receive g together phase = s := if_pos ((s.deaf_iff together).mpr h)

theorem State.receive_of_stray {g : Frame} {together : Bool} (h : s.hears together) (hlen : g.body.payload.length ≤ 64)
    (hstray : s.acceptedFrom g = none) : s.receive g together phase = s.badFrameTaken .stray := by
  have hdeaf : ¬ s.deaf together = true := fun hd => (s.deaf_iff together).mp hd h
  simp only [State.receive, if_neg hdeaf, if_neg (Nat.not_lt.mpr hlen), hstray, State.badFrame_eq]

/-- The station keeps the turn, and its reply timer starts again (R36). -/
def State.turnKept (s : State) : State := { s with link := { s.link with replyTimer := some s.host.replyTime } }

/-- An accepted frame is a frame seen, then takes the turn or leaves it, then means what its row says (R34, R36, R93). -/
theorem State.receive_of_accepted {g : Frame} {together : Bool} (h : s.hears together)
    (hlen : g.body.payload.length ≤ 64) (hturn : s.link.turn = .station a) (haddr : g.body.address = addressOf a)
    (htag : g.kind = .reply ∨ s.concernedTag = some g.body.tag) :
    s.receive g together phase =
      (phase (if returnsTurn g then (s.seen a).turnReturned else (s.seen a).turnKept)).choose := by
  have hdeaf : ¬ s.deaf together = true := fun hd => (s.deaf_iff together).mp hd h
  have hfrom : s.acceptedFrom g = some a := State.acceptedFrom_of_station hturn haddr htag
  have hturn' : (s.seen a).link.turn = .station a := hturn
  have htake : (s.seen a).takeTurn g =
      if returnsTurn g then (s.seen a).turnReturned else (s.seen a).turnKept := by
    simp only [State.takeTurn, hturn']
    rfl
  simp only [State.receive, if_neg hdeaf, if_neg (Nat.not_lt.mpr hlen), hfrom, State.stationSeen_eq, htake]

theorem State.hears_of_listening {together : Bool} (hsend : s.link.sending = none) (hbreak : s.link.op ≠ .resetBreak)
    (hquiet : s.link.op ≠ .resetQuiet) : s.hears together := ⟨.inl hsend, hbreak, hquiet⟩

/-- A receive row whose frame returns the turn. -/
theorem ReceiveRow.exec_returned (h : ReceiveRow f i k phase) (hheld : s.host.held = false)
    (hhears : s.hears f.withExpiry) (hturn : s.link.turn = .station a) (hfits : f.fitsFor i a t)
    (htag : s.concernedTag = some t) (hr : ¬ (i = .dataReceived f ∧ f.turn = false ∧ f.last = false)) :
    exec i s = .next (phase (s.seen a).turnReturned).choose := by
  obtain ⟨haddr, hlen, htag'⟩ := hfits
  have hret : returnsTurn { kind := k, body := f.toFrameBody } = true :=
    Bool.of_not_eq_false fun hf => hr (h.returnsTurn_eq_false.mp hf)
  have htaken : k = .reply ∨ s.concernedTag = some f.tag :=
    htag'.symm.imp h.kind_eq_reply.mpr fun e => htag.trans (congrArg some e.symm)
  rw [h.exec_eq hheld, State.receive_of_accepted hhears hlen hturn haddr htaken, if_pos hret]

/-- A DATA row whose frame leaves the turn with the station. -/
theorem ReceiveRow.exec_kept (h : ReceiveRow f i k phase) (hheld : s.host.held = false)
    (hhears : s.hears f.withExpiry) (hturn : s.link.turn = .station a) (hfits : f.fitsFor i a t)
    (htag : s.concernedTag = some t) (hr : i = .dataReceived f ∧ f.turn = false ∧ f.last = false) :
    exec i s = .next (phase (s.seen a).turnKept).choose := by
  obtain ⟨haddr, hlen, htag'⟩ := hfits
  have hret : ¬ returnsTurn { kind := k, body := f.toFrameBody } = true :=
    Bool.not_eq_true _ ▸ h.returnsTurn_eq_false.mpr hr
  have htaken : k = .reply ∨ s.concernedTag = some f.tag :=
    htag'.symm.imp h.kind_eq_reply.mpr fun e => htag.trans (congrArg some e.symm)
  rw [h.exec_eq hheld, State.receive_of_accepted hhears hlen hturn haddr htaken, if_neg hret]

/-! ### The tag an operation concerns -/

theorem State.concernedTag_of_exchange (hop : s.link.op = .exchange c) (hx : s.slots[c.slot] = some x) :
    s.concernedTag = x.st.tag? := by
  simp only [State.concernedTag, hop, hx]

theorem State.concernedTag_of_visit {limit : Nat} (hop : s.link.op = .abortVisit n limit) (hx : s.slots[n] = some x) :
    s.concernedTag = x.st.tag? := by
  simp only [State.concernedTag, hop, hx]

theorem State.concernedTag_of_cleanup {w : PollWindow} {e : CleanupEntry} {es : List CleanupEntry}
    (hop : s.link.op = .poll w) (hw : w.cleanup = e :: es) : s.concernedTag = some e.tag := by
  simp only [State.concernedTag, hop, hw]

/-! ### Damaged and stray frames -/

/-- Bytes whose length field is above 64, or whose check value is wrong, are damaged (R29). -/
theorem judgeBytes_crc {b0 b1 b2 : Byte} {rest : List Byte}
    (h : (64 < b2.toNat ∧ rest.length = 66) ∨
      (b2.toNat ≤ 64 ∧ rest.length = b2.toNat + 2 ∧
        rest.drop b2.toNat ≠ checkBytes (b0 :: b1 :: b2 :: rest.take b2.toNat))) :
    judgeBytes (b0 :: b1 :: b2 :: rest) = .damaged .crc := by
  rcases h with ⟨hlong, hlen⟩ | ⟨hshort, hlen, hcheck⟩
  · simp only [judgeBytes, if_pos hlong, if_pos hlen]
  · simp only [judgeBytes, if_neg (Nat.not_lt.mpr hshort), if_pos hlen, if_neg hcheck]

theorem kindOfCode_eq_none {v : BitVec 4} (h : v.toNat = 0 ∨ 13 ≤ v.toNat) : kindOfCode v = none := by
  revert h
  revert v
  decide

/-- Bytes with a right check value and an unknown kind code are stray (R29). -/
theorem judgeBytes_stray {b0 b1 b2 : Byte} {rest : List Byte} (hshort : b2.toNat ≤ 64)
    (hlen : rest.length = b2.toNat + 2)
    (hcheck : rest.drop b2.toNat = checkBytes (b0 :: b1 :: b2 :: rest.take b2.toNat))
    (hkind : b0.toNat / 16 = 0 ∨ 13 ≤ b0.toNat / 16) :
    judgeBytes (b0 :: b1 :: b2 :: rest) = .damaged .stray := by
  have hcode : (b0.extractLsb' 4 4).toNat = b0.toNat / 16 := by
    rw [BitVec.extractLsb'_toNat, Nat.shiftRight_eq_div_pow]
    have := b0.isLt
    omega
  have hnone : kindOfCode (b0.extractLsb' 4 4) = none := kindOfCode_eq_none (hcode ▸ hkind)
  simp only [judgeBytes, if_neg (Nat.not_lt.mpr hshort), if_pos hlen, if_pos hcheck, hnone]

theorem State.receiveBytes_of_damaged {b : ReceivedBytes} {cause : LinkFault} (h : judgeBytes b.bytes = .damaged cause)
    (hhears : s.hears b.withExpiry) : s.receiveBytes b = s.badFrameTaken cause := by
  have hdeaf : ¬ s.deaf b.withExpiry = true := fun hd => (s.deaf_iff _).mp hd hhears
  simp only [State.receiveBytes, h, if_neg hdeaf, State.badFrame_eq]

theorem State.receiveBytes_of_unheard {b : ReceivedBytes} (h : ¬ s.hears b.withExpiry) : s.receiveBytes b = s := by
  have hdeaf : s.deaf b.withExpiry = true := (s.deaf_iff _).mpr h
  unfold State.receiveBytes
  split
  · rfl
  · rw [if_pos hdeaf]
  · exact State.receive_of_unheard h

/-- Settles O35. -/
theorem badFramesOnlyRecordFaults : Obligations.BadFramesOnlyRecordFaults := by
  refine ⟨fun s b0 b1 b2 rest together hheld => ⟨fun hhears => ⟨fun hbad => ?crc, fun hshort hlen hcheck hkind => ?kind⟩,
    fun hdeaf => ?unheard⟩, fun s f k c hheld hlen hc => ?stray⟩
  case crc =>
    exact (next_taken s _ hheld).trans (congrArg _ (State.receiveBytes_of_damaged (judgeBytes_crc hbad) hhears))
  case kind =>
    exact (next_taken s _ hheld).trans
      (congrArg _ (State.receiveBytes_of_damaged (judgeBytes_stray hshort hlen hcheck hkind) hhears))
  case unheard =>
    exact (next_taken s _ hheld).trans (congrArg _ (State.receiveBytes_of_unheard hdeaf))
  case stray =>
    obtain ⟨kind, phase, hrow⟩ := receiveRow_of_mem hc
    refine ⟨fun hhears hwhy => ?_, fun hdeaf => (hrow.exec_eq hheld).trans (congrArg _ (State.receive_of_unheard hdeaf))⟩
    refine (hrow.exec_eq hheld).trans (congrArg _ (State.receive_of_stray hhears hlen ?_))
    rcases hwhy with h | h | ⟨a, h | h, haddr⟩ | ⟨a, h, hc, htag⟩ | ⟨a, h, hc⟩
    · simp only [State.acceptedFrom, h]
    · simp only [State.acceptedFrom, h]
    · simp only [State.acceptedFrom, h, haddr, false_and, if_false]
    · simp only [State.acceptedFrom, h, haddr, false_and, if_false]
    · simp only [State.acceptedFrom, h, mt hrow.kind_eq_reply.mp hc, htag, or_self, and_false, if_false]
    · simp only [State.acceptedFrom, h, mt hrow.kind_eq_reply.mp hc, and_false, if_false]

/-! ### An accepted frame in a connection -/

theorem State.inOperation_of_carried {k : Carried} {g : State → Carried → State} (hk : s.carried = some k) :
    s.inOperation g =
      if k.c.abortSent then s.abortSentOther k
      else if k.waiting.isSome then s.abortAtTurn k
      else g s k := by
  obtain ⟨hop, -, -⟩ := s.carried_spec k hk
  simp only [State.inOperation, hop, hk]

theorem State.inOperation_normal {p : State → Carried → State} {r : Nat} (hop : s.link.op = .exchange c)
    (hx : s.slots[c.slot] = some x) (hst : x.st = .connected t r none) (habort : c.abortSent = false) :
    s.inOperation p = p s ⟨c, x, t, r, none⟩ := by
  rw [State.inOperation_of_carried (s.carried_of c x t r none hop hx hst)]
  simp [habort]

end Sys2Proof.Machine
end

section
/-!
PROOF. The station's answers to CALL and RESUME: ACCEPT, REFUSE and DEFER in a connection with no pending status
(R18, R47 to R50, R71, R88).
-/
set_option Elab.async false

namespace Sys2Proof.Machine

variable {s : State} {n : SlotNo} {x : Exchange} {t : Tag} {c : Connection} {a : StationNo} {f : Received} {i : Instr}
  {k : FrameKind} {phase : State → State} {r : Nat} {p : Option Fatal}

/-! ### What a frame seen keeps -/

/-- A frame seen changes the miss count and the state of its station alone. -/
theorem State.seen_station (s : State) (a b : StationNo) :
    ∃ m q, (s.seen a).stations[b] = { s.stations[b] with missCount := m, state := q } := by
  by_cases h : a = b
  · subst h
    exact ⟨_, _, Vector.getElem_set_self a.isLt⟩
  · exact ⟨_, _, Vector.getElem_set_ne a.isLt b.isLt fun e => h (Fin.ext e)⟩

theorem State.seen_tagMap (s : State) (a b : StationNo) : (s.seen a).stations[b].tagMap = s.stations[b].tagMap := by
  obtain ⟨m, q, h⟩ := s.seen_station a b
  rw [h]

theorem State.seen_creditMax (s : State) (a b : StationNo) :
    (s.seen a).stations[b].creditMax = s.stations[b].creditMax := by
  obtain ⟨m, q, h⟩ := s.seen_station a b
  rw [h]

theorem State.seen_parkLimit (s : State) (a b : StationNo) :
    (s.seen a).stations[b].parkLimit = s.stations[b].parkLimit := by
  obtain ⟨m, q, h⟩ := s.seen_station a b
  rw [h]

/-! ### A slot record written back as it was -/

theorem Exchange.st_eta {st : SlotState} (h : x.st = st) : { x with st := st } = x := by subst h; rfl

theorem slots_set_same {v : Vector (Option Exchange) 32} {st : SlotState} (hx : v[n] = some x) (hst : x.st = st) :
    v.set n (some { x with st := st }) = v := by
  rw [Exchange.st_eta hst, ← hx]
  exact Vector.set_get v n

theorem State.afterDone_setSlot {y : Option Exchange} {g : FinalStatus} {st : Option Byte} {res : List Byte} :
    (s.setSlot n y).afterDone n x g st res = s.afterDone n x g st res := by
  simp only [State.afterDone, State.setSlot, Vector.set_set]

/-! ### A frame of the station of a connection -/

theorem State.concernedTag_of_connected (hop : s.link.op = .exchange c) (hx : s.slots[c.slot] = some x)
    (hst : x.st = .connected t r p) : s.concernedTag = some t := by
  rw [State.concernedTag_of_exchange hop hx, hst]
  rfl

theorem State.hears_of_connected {together : Bool} (hop : s.link.op = .exchange c) (hsend : s.link.sending = none) :
    s.hears together := State.hears_of_listening hsend (by simp [hop]) (by simp [hop])

/-- A frame of the station of a connection that returns the turn. -/
theorem exec_of_awaits (h : s.awaitsStation c x t r p) (hfits : f.fitsFor i x.station t) (hrow : ReceiveRow f i k phase)
    (hi : ¬ (i = .dataReceived f ∧ f.turn = false ∧ f.last = false)) :
    exec i s = .next (phase (s.seen x.station).turnReturned).choose := by
  obtain ⟨hheld, hop, hturn, hsend, hx, hst, -⟩ := h
  exact hrow.exec_returned hheld (State.hears_of_connected hop hsend) hturn hfits
    (State.concernedTag_of_connected hop hx hst) hi

/-- A DATA frame that leaves the turn with the station of a connection. -/
theorem exec_of_awaits_kept (h : s.awaitsStation c x t r p) (hfits : f.fitsFor i x.station t)
    (hrow : ReceiveRow f i k phase) (hi : i = .dataReceived f ∧ f.turn = false ∧ f.last = false) :
    exec i s = .next (phase (s.seen x.station).turnKept).choose := by
  obtain ⟨hheld, hop, hturn, hsend, hx, hst, -⟩ := h
  exact hrow.exec_kept hheld (State.hears_of_connected hop hsend) hturn hfits
    (State.concernedTag_of_connected hop hx hst) hi

theorem Received.fitsFor_of_fits (h : f.fits x t) : f.fitsFor i x.station t := ⟨h.1, h.2.2, .inl h.2.1⟩

/-- An accepted frame of the station in a connection with no pending status means what the row's table says. -/
theorem exec_of_normal {g : State → Carried → State} (h : s.awaitsStation c x t r none) (hfits : f.fits x t)
    (hrow : ReceiveRow f i k (·.inOperation g))
    (hi : ¬ (i = .dataReceived f ∧ f.turn = false ∧ f.last = false)) :
    exec i s = .next (g (s.seen x.station).turnReturned ⟨c, x, t, r, none⟩).choose := by
  rw [exec_of_awaits h (Received.fitsFor_of_fits hfits) hrow hi]
  obtain ⟨-, hop, -, -, hx, hst, habort⟩ := h
  rw [State.inOperation_normal (s := (s.seen x.station).turnReturned) hop hx hst habort]

theorem exec_of_normal_kept {g : State → Carried → State} (h : s.awaitsStation c x t r none) (hfits : f.fits x t)
    (hrow : ReceiveRow f i k (·.inOperation g)) (hi : i = .dataReceived f ∧ f.turn = false ∧ f.last = false) :
    exec i s = .next (g (s.seen x.station).turnKept ⟨c, x, t, r, none⟩).choose := by
  rw [exec_of_awaits_kept h (Received.fitsFor_of_fits hfits) hrow hi]
  obtain ⟨-, hop, -, -, hx, hst, habort⟩ := h
  rw [State.inOperation_normal (s := (s.seen x.station).turnKept) hop hx hst habort]

theorem oneByte_of_single {b : Byte} (h : f.payload = [b]) : oneByte f.toFrameBody = some b.toNat := by
  simp only [oneByte, h]

/-! ### ACCEPT -/

/-- Settles O36. -/
theorem acceptStartsWriteBurst : Obligations.AcceptStartsWriteBurst := by
  intro s c x t r f credit hwait hfits hphase hwrite hrange hpay hlow hhigh
  have hexec := exec_of_normal hwait hfits .accept (by simp)
  obtain ⟨-, -, -, -, hx, hst, -⟩ := hwait
  have hkept : s.slots.set c.slot (some { x with st := .connected t r none }) = s.slots := slots_set_same hx hst
  have hmeans (u : State) : State.normalAccept f.toFrameBody u ⟨c, x, t, r, none⟩ =
      if x.doneCount < x.count then u.startBurst ⟨{ c with stationCredit := some credit.toNat }, x, t, r, none⟩
      else u.sendClosingAck ⟨{ c with stationCredit := some credit.toNat }, x, t, r, none⟩ := by
    simp only [State.normalAccept, hphase, hwrite, oneByte_of_single hpay, hlow, hhigh, and_self, if_true]
  rw [hmeans] at hexec
  refine ⟨fun hcount => ⟨dataOf s.stage.mem x t c.oldest (x.doneCount / 64)
      (min credit.toNat (frames x.count - x.doneCount / 64) == 1), hexec.trans (congrArg _ ?burst), rfl, rfl, rfl, rfl, beq_iff_eq, beq_iff_eq, rfl⟩,
    fun hcount => hexec.trans (congrArg _ ?closing)⟩
  case burst =>
    rw [if_pos hcount, State.startBurst_eq _ _ credit.toNat hwrite hrange rfl hcount rfl,
      State.choose_of_busy _ (by simp [State.burstFrom, sendingLink])]
    simp only [State.burstFrom]
    exact congrArg (fun v => ({ s.seen x.station with slots := v, link := _ } : State)) hkept
  case closing =>
    rw [if_neg (by omega), State.choose_of_busy _ (by simp [State.sendClosingAck, State.send, State.carry, State.setOp,
      State.withLink])]
    simp only [State.sendClosingAck, hwrite, reduceCtorEq, if_false, ackFrame_eq]
    exact congrArg (fun v => ({ s.seen x.station with slots := v, link := _ } : State)) hkept

/-- Settles O37. -/
theorem acceptGrantsReadCredit : Obligations.AcceptGrantsReadCredit := by
  intro s c x t r f any hwait hfits hphase hread hnone hpay hdata hcount credit
  have hexec := exec_of_normal hwait hfits .accept (by simp)
  obtain ⟨-, -, -, -, hx, hst, -⟩ := hwait
  have hkept : s.slots.set c.slot (some { x with st := .connected t r none }) = s.slots := slots_set_same hx hst
  have hmeans (u : State) : State.normalAccept f.toFrameBody u ⟨c, x, t, r, none⟩ = u.grantOf c x t r := by
    simp only [State.normalAccept, hphase, hread, oneByte_of_single hpay]
    exact State.grantPoint_eq u _ hread rfl
  rw [hmeans, State.choose_of_busy _ (State.grantOf_busy _ _ _ _)] at hexec
  have hcredit : min (s.seen x.station).turnReturned.stations[x.station].creditMax
      (min (frames x.count - x.doneCount / 64) ((s.seen x.station).turnReturned.stage.free.length +
        (s.seen x.station).turnReturned.stage.reserved.length)) = credit := by
    have hstage : (s.seen x.station).turnReturned.stage = s.stage := rfl
    have hstations : (s.seen x.station).turnReturned.stations = (s.seen x.station).stations := rfl
    rw [hstage, hstations, State.seen_creditMax, hnone, List.length_nil, Nat.add_zero]
  have hstage (m : Nat) : s.stage.withReserved m =
      { s.stage with free := s.stage.free.drop m, reserved := s.stage.free.take m } := by
    rw [StageMem.withReserved, hnone, List.nil_append]
  unfold State.grantOf at hexec
  simp only [hcredit] at hexec
  rw [if_pos ⟨hdata, hcount⟩] at hexec
  refine ⟨fun hsome => ?grant, fun hzero => ⟨parkedOf x t 2, ?park, rfl, rfl, rfl, rfl, rfl⟩⟩
  case grant =>
    rw [if_neg (by omega)] at hexec
    refine hexec.trans (congrArg _ ?_)
    exact (congrArg (fun v => ({ s.seen x.station with slots := v, stage := _, link := _ } : State)) hkept).trans
      (congrArg (fun v => ({ s.seen x.station with stage := v, link := _ } : State)) (hstage credit))
  case park =>
    rw [if_pos hzero] at hexec
    refine hexec.trans (congrArg _ ?_)
    have hsame : s.stage.withReserved 0 = s.stage := by rw [hstage, List.drop_zero, List.take_zero, ← hnone]
    exact congrArg (fun v => ({ s.seen x.station with slots := _, arb := _, stage := v, link := _ } : State)) hsame

/-! ### REFUSE -/

/-- BUSY to a CALL below the busy limit: the slot is queued again and its station is in backoff (R18, R95). -/
theorem State.requeue_eq {k : Carried} :
    s.requeue k = { s with
      slots := s.slots.set k.c.slot (some { k.x with busyCount := k.x.busyCount + 1, st := .queued })
      stations := s.stations.set k.x.station { s.stations[k.x.station] with
        tagMap := s.stations[k.x.station].tagMap.set k.tag none, backoff := true }
      arb := { s.arb with
        level1 := if k.x.urgent then s.arb.level1 ++ [k.c.slot] else s.arb.level1
        level0 := if k.x.urgent then s.arb.level0 else s.arb.level0 ++ [k.c.slot] }
      link := idleLink } := by
  unfold State.requeue
  simp only [State.setTag, State.withStation, State.setSlot, State.joinIssue, State.withArb, State.endOp_eq,
    Fin.getElem_fin, Vector.getElem_set_self, Vector.set_set]
  cases k.x.urgent <;> rfl

/-- Settles O38. -/
theorem refuseRequeuesOrEnds : Obligations.RefuseRequeuesOrEnds := by
  intro s c x t r p f reason hwait hfits hpay
  have hexec := exec_of_awaits hwait (Received.fitsFor_of_fits hfits) .refuse (by simp)
  obtain ⟨-, hop, -, -, hx, hst, habort⟩ := hwait
  have hcarried : (s.seen x.station).turnReturned.carried = some ⟨c, x, t, r, p⟩ :=
    State.carried_of (s.seen x.station).turnReturned c x t r p hop hx hst
  have hop' : (s.seen x.station).turnReturned.link.op = .exchange c := hop
  have hnormal (hp : p = none) (hphase : c.phase = .opening) (hreason : reason.toNat ≠ 0) :
      State.takeRefuse f.toFrameBody (s.seen x.station).turnReturned =
        (s.seen x.station).turnReturned.refused ⟨c, x, t, r, none⟩ reason.toNat := by
    obtain ⟨m, hm⟩ := Nat.exists_eq_succ_of_ne_zero hreason
    simp only [State.takeRefuse, hop', hcarried, habort, hp, oneByte_of_single hpay, State.normalRefuse, hphase, hm,
      Nat.succ_eq_add_one, Bool.false_eq_true, if_false]
  have hbyte : BitVec.ofNat 8 reason.toNat = reason := by simp
  refine ⟨fun hp hphase hbusy hcall hcount => hexec.trans (congrArg _ ?requeued),
    fun hp hphase hbusy hcall hcount => hexec.trans (congrArg _ ?limit),
    fun hp hphase hother => hexec.trans (congrArg _ ?refused), fun q hp => hexec.trans (congrArg _ ?pending)⟩
  case requeued =>
    have hone : reason.toNat = 1 := by rw [hbusy]; rfl
    have hrun : (s.seen x.station).turnReturned.refused ⟨c, x, t, r, none⟩ 1 =
        (s.seen x.station).turnReturned.requeue ⟨c, x, t, r, none⟩ := by
      simp [State.refused, hcall, Config.busyLimit, hcount]
    rw [hnormal hp hphase (by omega), hone, hrun,
      State.requeue_eq]
    have htags : (s.seen x.station).turnReturned.stations[x.station].tagMap = s.stations[x.station].tagMap :=
      State.seen_tagMap s x.station x.station
    rw [htags]
    rfl
  case limit =>
    have hone : reason.toNat = 1 := by rw [hbusy]; rfl
    have hrun : (s.seen x.station).turnReturned.refused ⟨c, x, t, r, none⟩ 1 =
        ((s.seen x.station).turnReturned.setSlot c.slot
          (some { x with busyCount := 8, st := .connected t r none })).finish c.slot .busyLimit (some 1) [] := by
      simp [State.refused, hcall, Config.busyLimit, hcount]
    have hset : ((s.seen x.station).turnReturned.setSlot c.slot
        (some { x with busyCount := 8, st := .connected t r none })).slots[c.slot] =
          some { x with busyCount := 8, st := .connected t r none } := Vector.getElem_set_self c.slot.isLt
    have heta : ({ x with busyCount := 8, st := .connected t r none } : Exchange) = { x with busyCount := 8 } :=
      Exchange.st_eta (x := { x with busyCount := 8 }) (hst.trans (hp ▸ rfl))
    rw [hnormal hp hphase (by omega), hone, hrun, State.finish_eq hset (.inl rfl), State.afterDone_setSlot, heta]
    rfl
  case refused =>
    have hne : reason.toNat ≠ 0 := by
      rcases hother with ⟨h, -⟩ | h
      · rw [h]; decide
      · omega
    have hrun : (s.seen x.station).turnReturned.refused ⟨c, x, t, r, none⟩ reason.toNat =
        (s.seen x.station).turnReturned.finish c.slot .refused (some reason) [] := by
      rcases hother with ⟨h, hresumed⟩ | h
      · simp [State.refused, hresumed]
      · have hne1 : reason.toNat ≠ 1 := by omega
        simp [State.refused, hne1]
    rw [hnormal hp hphase hne, hrun, State.finish_eq (s := (s.seen x.station).turnReturned) hx (.inl rfl)]
    rfl
  case pending =>
    have hrun : State.takeRefuse f.toFrameBody (s.seen x.station).turnReturned =
        (s.seen x.station).turnReturned.finish c.slot q.final (some reason) [] := by
      simp only [State.takeRefuse, hop', hcarried, habort, hp, oneByte_of_single hpay, hbyte, Bool.false_eq_true,
        if_false]
    rw [hrun, State.finish_eq (s := (s.seen x.station).turnReturned) hx (.inl rfl)]
    rfl

/-! ### DEFER -/

/-- A slot is inserted behind every entry of at most its remaining time, and before the others (R88). -/
theorem insertByRemaining_split (rem : SlotNo → Nat) (n : SlotNo) (own : Nat) (l : List SlotNo) :
    ∃ before after, insertByRemaining rem n own l = before ++ n :: after ∧ l = before ++ after ∧
      (∀ m ∈ before, rem m ≤ own) ∧ ∀ m rest, after = m :: rest → own < rem m := by
  induction l with
  | nil => exact ⟨[], [], rfl, rfl, nofun, nofun⟩
  | cons m ms ih =>
    by_cases h : rem m ≤ own
    · obtain ⟨before, after, hins, hms, hle, hlt⟩ := ih
      refine ⟨m :: before, after, ?_, by rw [hms]; rfl, ?_, hlt⟩
      · rw [insertByRemaining, if_pos h, hins]; rfl
      · intro q hq
        rcases List.mem_cons.mp hq with rfl | hq
        · exact h
        · exact hle q hq
    · refine ⟨[], m :: ms, ?_, rfl, nofun, ?_⟩
      · rw [insertByRemaining, if_neg h]; rfl
      · rintro q rest ⟨⟩
        exact Nat.not_le.mp h

/-- The remaining time of another slot does not depend on this slot's record. -/
theorem State.remaining_setSlot {m : SlotNo} {y : Option Exchange} (h : m ≠ n) :
    (s.setSlot n y).remaining m = s.remaining m := by
  have hget : (s.setSlot n y).slots[m] = s.slots[m] :=
    Vector.getElem_set_ne n.isLt m.isLt fun e => h (Fin.ext e.symm)
  unfold State.remaining
  rw [hget]
  rfl

theorem fieldOf16_ofNat {o : Nat} (h : o < 65536) : fieldOf16 (BitVec.ofNat 8 o) (BitVec.ofNat 8 (o / 256)) = o := by
  simp only [fieldOf16, BitVec.toNat_ofNat]
  omega

/-- A DEFER's offset is valid exactly when it is a park point (R49, R56, R63). -/
theorem deferValid_iff (o : Nat) : deferValid ⟨c, x, t, r, p⟩ o = true ↔ isParkPoint c x o := by
  unfold deferValid isParkPoint burstEnd
  cases hphase : c.phase with
  | awaiting => cases x.op <;> simp [and_assoc]
  | _ => simp

/-- The record of a slot that parks for STATION at its done count (R71). -/
def State.parkedRecord (s : State) (k : Carried) : Exchange :=
  { k.x with st := .parkedStation k.tag (s.park.timebase + s.stations[k.x.station].parkLimit.setWidth 32) }

/-- A valid DEFER parks the slot, its deadline in its place in the list (R71, R88). -/
theorem State.parkStation_eq (k : Carried) :
    ∃ before after : List SlotNo, s.parkStation k = { s with
        slots := s.slots.set k.c.slot (some (s.parkedRecord k))
        stage :=
          if k.x.op = .read then { s.stage with free := s.stage.reserved ++ s.stage.free, reserved := [] } else s.stage
        park := { s.park with deadlines := before ++ k.c.slot :: after }
        link := sendingLink .parking (parkedOf k.x k.tag 1) } ∧
      s.park.deadlines = before ++ after ∧
      (∀ m ∈ before, m ≠ k.c.slot → s.remaining m ≤ s.stations[k.x.station].parkLimit.toNat) ∧
      ∀ m rest, after = m :: rest → m ≠ k.c.slot → s.stations[k.x.station].parkLimit.toNat < s.remaining m := by
  obtain ⟨before, after, hins, hl, hle, hlt⟩ := insertByRemaining_split
    (s.setSlot k.c.slot (some (s.parkedRecord k))).remaining k.c.slot s.stations[k.x.station].parkLimit.toNat s.park.deadlines
  refine ⟨before, after, ?_, hl, fun m hm hne => State.remaining_setSlot (s := s) hne ▸ hle m hm,
    fun m rest hm hne => State.remaining_setSlot (s := s) hne ▸ hlt m rest hm⟩
  rw [← hins]
  unfold State.parkStation
  dsimp only
  by_cases hread : k.x.op = .read
  · rw [if_pos hread, if_pos hread]
    rfl
  · rw [if_neg hread, if_neg hread]
    rfl

/-- Settles O39. -/
theorem deferParksForStation : Obligations.DeferParksForStation := by
  intro s c x t r f o hwait hfits ho hpay hpoint limit
  have hexec := exec_of_normal hwait hfits .defer (by simp)
  have hvalid : deferValid ⟨c, x, t, r, none⟩ o = true := (deferValid_iff o).mpr hpoint
  have hmeans (u : State) : State.normalDefer f.toFrameBody u ⟨c, x, t, r, none⟩ =
      u.parkStation ⟨c, { x with doneCount := o }, t, r, none⟩ := by
    simp only [State.normalDefer, deferOffset, hpay, fieldOf16_ofNat ho, hvalid, if_true]
  obtain ⟨before, after, hpark, hl, hle, hlt⟩ := State.parkStation_eq (s := (s.seen x.station).turnReturned)
    ⟨c, { x with doneCount := o }, t, r, none⟩
  have hlimit : (s.seen x.station).turnReturned.stations[x.station].parkLimit = limit :=
    State.seen_parkLimit s x.station x.station
  have hrecord : (s.seen x.station).turnReturned.parkedRecord ⟨c, { x with doneCount := o }, t, r, none⟩ =
      { x with doneCount := o, st := .parkedStation t (s.park.timebase + limit.setWidth 32) } :=
    congrArg (fun l : Word => { x with doneCount := o, st := .parkedStation t (s.park.timebase + l.setWidth 32) }) hlimit
  dsimp only at hpark hle hlt
  rw [hrecord] at hpark
  rw [hlimit] at hle hlt
  refine ⟨parkedOf { x with doneCount := o } t 1, before, after, hexec.trans (congrArg _ ?_), hl, hle, hlt, rfl, rfl, rfl, rfl, rfl⟩
  rw [hmeans, hpark]
  exact State.choose_of_busy _ (by simp [sendingLink])

end Sys2Proof.Machine
end

section
/-!
PROOF. CLOSE, ACK and DATA (R19, R40, R54, R61, R62, R109, R129, R142, R148).
-/
set_option Elab.async false

namespace Sys2Proof.Machine

variable {s : State} {n : SlotNo} {x : Exchange} {t : Tag} {c : Connection} {a : StationNo} {f : Received} {i : Instr}
  {k : FrameKind} {phase : State → State} {r : Nat} {p : Option Fatal}

/-! ### CLOSE -/

/-- The use of a free value that a CLOSE without a status byte counts. -/
def State.closeCounted (s : State) (f : FrameBody) : State := if f.payload = [] then s.useFree else s

theorem State.closeCounted_of_cons {f : FrameBody} {b : Byte} {more : List Byte} (h : f.payload = b :: more) :
    s.closeCounted f = s := by
  rw [State.closeCounted, if_neg (by simp [h])]

theorem State.closeCounted_of_nil {f : FrameBody} (h : f.payload = []) :
    s.closeCounted f = { s with freeCount := s.freeCount + 1 } := by
  rw [State.closeCounted, if_pos h]
  rfl

theorem State.closeCounted_slots (f : FrameBody) : (s.closeCounted f).slots = s.slots := by
  unfold State.closeCounted
  split <;> rfl

theorem closeByte_of_cons {f : FrameBody} {b : Byte} {more : List Byte} (h : f.payload = b :: more) :
    closeByte f s = some b := by
  simp only [closeByte, h]

theorem State.takeClose_of_abortSent {f : FrameBody} {q : Fatal} (hop : s.link.op = .exchange c)
    (hx : s.slots[c.slot] = some x) (hst : x.st = .connected t r (some q)) (habort : c.abortSent = true) :
    s.takeClose f =
      { (s.closeCounted f).afterDone c.slot x q.final (closeByte f s) [] with link := idleLink } := by
  have hk := s.carried_of c x t r (some q) hop hx hst
  have hrun : s.takeClose f = (s.closeCounted f).finish c.slot q.final (closeByte f s) [] := by
    simp only [State.takeClose, hop, hk, habort, if_true, Option.getD_some]
    rfl
  have hx' : (s.closeCounted f).slots[c.slot] = some x := (s.closeCounted_slots f).symm ▸ hx
  rw [hrun, State.finish_eq hx' (.inl rfl)]

theorem State.takeClose_of_visit {f : FrameBody} {q : Fatal} {m : Option Nat} {limit : Nat}
    (hop : s.link.op = .abortVisit n limit) (hx : s.slots[n] = some x) (hst : x.st = .aborting t q m) :
    s.takeClose f =
      { (s.closeCounted f).afterDone n x q.final (closeByte f s) [] with link := idleLink } := by
  have hrun : s.takeClose f = ((s.closeCounted f).endAborting n (closeByte f s)).endOp := by
    simp only [State.takeClose, hop]
    rfl
  have hx' : (s.closeCounted f).slots[n] = some x := (s.closeCounted_slots f).symm ▸ hx
  rw [hrun, State.endAborting_eq hx' hst, State.endOp_eq]

/-- A permitted CLOSE before ABORT has been sent decides the outcome (R19). -/
theorem State.takeClose_of_permitted {f : FrameBody} {status : Byte} {result : List Byte}
    (hop : s.link.op = .exchange c) (hx : s.slots[c.slot] = some x) (hst : x.st = .connected t r p)
    (habort : c.abortSent = false) (hpay : f.payload = status :: result)
    (hlen : result.length ≤ if x.op = .control then 8 else 0) :
    s.takeClose f =
      { s.afterDone c.slot x (closeStatus x status) (some status) result with link := idleLink } := by
  have hk := s.carried_of c x t r p hop hx hst
  have hpermitted : closePermitted x.op f = true := by
    cases hop' : x.op with
    | control =>
      rw [if_pos hop'] at hlen
      simp only [closePermitted, hpay, List.length_cons, Bool.and_eq_true, decide_eq_true_eq]
      omega
    | _ =>
      rw [if_neg (by simp [hop'])] at hlen
      simp only [closePermitted, hpay, List.length_cons, beq_iff_eq]
      omega
  have hrun : s.takeClose f = s.finish c.slot (closeStatus x status) (some status) result := by
    simp only [State.takeClose, hop, hk, habort, Bool.false_eq_true, if_false, hpermitted, if_true, hpay]
    rfl
  rw [hrun, State.finish_eq hx]
  by_cases hcontrol : x.op = .control
  · exact .inr hcontrol
  · rw [if_neg hcontrol] at hlen
    exact .inl (List.eq_nil_of_length_eq_zero (Nat.le_zero.mp hlen))

/-! ### Frames in an abort visit and in a cleanup wait -/

theorem exec_of_visit {limit : Nat} (hheld : s.host.held = false) (hop : s.link.op = .abortVisit n limit)
    (hturn : s.link.turn = .station x.station) (hsend : s.link.sending = none) (hx : s.slots[n] = some x)
    (ht : x.st.tag? = some t) (hfits : f.fitsFor i x.station t) (hrow : ReceiveRow f i k phase)
    (hi : ¬ (i = .dataReceived f ∧ f.turn = false ∧ f.last = false)) :
    exec i s = .next (phase (s.seen x.station).turnReturned).choose :=
  hrow.exec_returned hheld (State.hears_of_listening hsend (by simp [hop]) (by simp [hop])) hturn hfits
    ((State.concernedTag_of_visit hop hx).trans ht) hi

theorem exec_of_cleanup {w : PollWindow} {e : CleanupEntry} {es : List CleanupEntry} (h : s.cleanupAwaits w e es)
    (hfits : f.fitsFor i e.station e.tag) (hrow : ReceiveRow f i k phase)
    (hi : ¬ (i = .dataReceived f ∧ f.turn = false ∧ f.last = false)) :
    exec i s = .next (phase (s.seen e.station).turnReturned).choose := by
  obtain ⟨hheld, hop, hw, hturn, hsend⟩ := h
  exact hrow.exec_returned hheld (State.hears_of_listening hsend (by simp [hop]) (by simp [hop])) hturn hfits
    (State.concernedTag_of_cleanup hop hw) hi

/-- Settles O40. -/
theorem closeEndsTheSlot : Obligations.CloseEndsTheSlot := by
  refine ⟨fun s c x t r p f status result hheld hop hturn hsend hx hst hfits hpay => ?connection,
    fun s n limit x t q r f status more hheld hop hturn hsend hx hst hfits hpay => ?visit,
    fun s w e es f status more hwait haddr htag hlen => ?cleanup,
    fun s n x t q f hheld hturn hsend hx hfits hpay hcase => ?empty⟩
  case connection =>
    have hexec := ReceiveRow.close.exec_returned hheld (State.hears_of_connected hop hsend) hturn
      (Received.fitsFor_of_fits hfits) (State.concernedTag_of_connected hop hx hst) (by simp)
    refine ⟨fun habort hlen => hexec.trans (congrArg _ ?_), fun q habort hp => hexec.trans (congrArg _ ?_)⟩
    · rw [State.takeClose_of_permitted (s := (s.seen x.station).turnReturned) hop hx hst habort hpay hlen]
      rfl
    · rw [State.takeClose_of_abortSent (s := (s.seen x.station).turnReturned) hop hx (hp ▸ hst) habort,
        State.closeCounted_of_cons hpay, closeByte_of_cons hpay]
      rfl
  case visit =>
    refine (exec_of_visit hheld hop hturn hsend hx (by rw [hst]; rfl) (Received.fitsFor_of_fits hfits) .close
      (by simp)).trans (congrArg _ ?_)
    rw [State.takeClose_of_visit (s := (s.seen x.station).turnReturned) hop hx hst, State.closeCounted_of_cons hpay,
      closeByte_of_cons hpay]
    rfl
  case cleanup =>
    have hexec := exec_of_cleanup hwait ⟨haddr, hlen, .inl htag⟩ .close (by simp)
    obtain ⟨-, hop, hw, -, -⟩ := hwait
    have hop' : (s.seen e.station).turnReturned.link.op = .poll w := hop
    refine ⟨fun he => hexec.trans (congrArg _ ?unbound), fun n x t q r he hx hst hes => ?bound⟩
    case unbound =>
      have hrun : (s.seen e.station).turnReturned.takeClose f.toFrameBody =
          (s.seen e.station).turnReturned.nextCleanup := by
        simp only [State.takeClose, hop', hw, he]
      rw [hrun, State.nextCleanup_eq hop' (congrArg List.tail hw)]
      exact State.cleanupGoesOn_link _ _ _
    case bound =>
      have hrun : (s.seen e.station).turnReturned.takeClose f.toFrameBody =
          (((s.seen e.station).turnReturned.closeCounted f.toFrameBody).endAborting n
            (closeByte f.toFrameBody (s.seen e.station).turnReturned)).nextCleanup := by
        simp only [State.takeClose, hop', hw, he]
        rfl
      have hx' : ((s.seen e.station).turnReturned.closeCounted f.toFrameBody).slots[n] = some x :=
        (State.closeCounted_slots _).symm ▸ hx
      rw [hrun, State.endAborting_eq hx' hst] at hexec
      refine ⟨fun hpay => hexec.trans (congrArg _ ?_), fun hpay =>
        ⟨closeByte f.toFrameBody (s.seen e.station).turnReturned, hexec.trans (congrArg _ ?_)⟩⟩
      · rw [State.closeCounted_of_cons hpay, closeByte_of_cons hpay,
          State.nextCleanup_afterDone (s := (s.seen e.station).turnReturned) hop' hw hes rfl]
        exact State.cleanupGoesOn_link (s := (s.seen e.station).afterDone n x q.final (some status) []) _ _ _
      · generalize closeByte f.toFrameBody (s.seen e.station).turnReturned = given
        rw [State.closeCounted_of_nil hpay]
        exact (State.nextCleanup_afterDone (s := (s.seen e.station).turnReturned) (x := x) (f := q.final) (st := given)
          (u := { (s.seen e.station).turnReturned.afterDone n x q.final given [] with freeCount := s.freeCount + 1 })
          hop' hw hes rfl).trans (State.cleanupGoesOn_link
            (s := { (s.seen e.station).afterDone n x q.final given [] with freeCount := s.freeCount + 1 }) _ _ _)
  case empty =>
    rcases hcase with ⟨c, r, hop, rfl, habort, hst⟩ | ⟨limit, r, hop, hst⟩
    · refine ⟨closeByte f.toFrameBody (s.seen x.station).turnReturned, (ReceiveRow.close.exec_returned hheld (State.hears_of_connected hop hsend) hturn
        (Received.fitsFor_of_fits hfits) (State.concernedTag_of_connected hop hx hst) (by simp)).trans
        (congrArg _ ?_)⟩
      rw [State.takeClose_of_abortSent (s := (s.seen x.station).turnReturned) hop hx hst habort,
        State.closeCounted_of_nil hpay]
      rfl
    · refine ⟨closeByte f.toFrameBody (s.seen x.station).turnReturned, (exec_of_visit hheld hop hturn hsend hx (by rw [hst]; rfl) (Received.fitsFor_of_fits hfits) .close
        (by simp)).trans (congrArg _ ?_)⟩
      rw [State.takeClose_of_visit (s := (s.seen x.station).turnReturned) hop hx hst, State.closeCounted_of_nil hpay]
      rfl

/-! ### ACK -/

theorem Exchange.inRange_doneCount {o : Nat} (hop : x.op = .write) (h : x.inRange = true) (ho : o ≤ x.count) :
    ({ x with doneCount := o } : Exchange).inRange = true := by
  simp only [Exchange.inRange, Exchange.areasFit, hop, Bool.and_eq_true, decide_eq_true_eq] at h ⊢
  obtain ⟨⟨⟨⟨⟨hcount, -⟩, hareas⟩, hresult⟩, hbusy⟩, hlast⟩ := h
  exact ⟨⟨⟨⟨⟨hcount, ho⟩, hareas⟩, hresult⟩, hbusy⟩, hlast⟩

/-- Settles O41. -/
theorem ackAcknowledgesFrames : Obligations.AckAcknowledgesFrames := by
  intro s c x t r f credit d moved hwait hfits hphase hwrite hrange hpay hd hmoved after acked
  have hexec := exec_of_normal hwait hfits .ack (by simp)
  have hcount : moved ≤ x.count := by omega
  have hrange' : ({ x with doneCount := moved } : Exchange).inRange = true :=
    Exchange.inRange_doneCount hwrite hrange hcount
  have hzero : credit = 0 ↔ credit.toNat = 0 := by
    constructor
    · rintro rfl; rfl
    · exact fun h => BitVec.eq_of_toNat_eq h
  have hacked : ackedCount ⟨c, x, t, r, none⟩ d = moved := hmoved.symm
  have hmeans (u : State) : State.normalAck f.toFrameBody u ⟨c, x, t, r, none⟩ =
      if credit.toNat ≤ 4 ∧ d ≤ c.burst ∧ (credit.toNat = 0 → moved = x.count) then
        u.acknowledged ⟨c, x, t, r, none⟩ f.seq d credit.toNat
      else u.protocolError ⟨c, x, t, r, none⟩ := by
    simp only [State.normalAck, hphase, hwrite, oneByte_of_single hpay, ← hd, hacked]
  rw [hmeans] at hexec
  refine ⟨fun hle hall hcredit => hexec.trans (congrArg _ ?closing), fun hle hmore hlow hhigh =>
    ⟨fun hgo => hexec.trans (congrArg _ ?burst), fun hshort hlimit => hexec.trans (congrArg _ ?exhausted)⟩,
    fun hbad => hexec.trans (congrArg _ ?bad)⟩
  case closing =>
    rw [if_pos ⟨hcredit, hle, fun _ => hall⟩, State.acknowledged]
    simp only [hacked, if_pos hall]
    rw [State.choose_of_busy _ (by simp [State.sendClosingAck, State.send, State.carry, State.setOp, State.withLink])]
    simp only [State.sendClosingAck, hwrite, reduceCtorEq, if_false, ackFrame_eq]
    rfl
  case burst =>
    rw [if_pos ⟨hhigh, hle, fun h => by omega⟩, State.acknowledged]
    simp only [hacked, if_neg (Nat.ne_of_lt hmore)]
    by_cases hshort : d < c.burst
    · have hretry : after < c.retryLimit := hgo.resolve_left (Nat.ne_of_lt hshort)
      rw [if_pos hshort, if_pos hshort, State.recover_of_lt (by exact hretry),
        State.startBurst_eq _ _ credit.toNat (by exact hwrite) (by exact hrange') rfl (by exact hmore) rfl]
      exact State.choose_of_busy _ (by simp [State.burstFrom, sendingLink])
    · rw [if_neg hshort, if_neg hshort,
        State.startBurst_eq _ _ credit.toNat (by exact hwrite) (by exact hrange') rfl (by exact hmore) rfl]
      exact State.choose_of_busy _ (by simp [State.burstFrom, sendingLink])
  case exhausted =>
    rw [if_pos ⟨hhigh, hle, fun h => by omega⟩, State.acknowledged]
    simp only [hacked, if_neg (Nat.ne_of_lt hmore), if_pos hshort]
    rw [State.recover_of_ge (by exact hlimit), State.exhausted_eq _ _ rfl]
    exact State.choose_of_busy _ (by simp [State.abortPhaseOf, sendingLink])
  case bad =>
    have hno : ¬ (credit.toNat ≤ 4 ∧ d ≤ c.burst ∧ (credit.toNat = 0 → moved = x.count)) := by
      rintro ⟨hcredit, hle, hz⟩
      rcases hbad with h | h | ⟨hmore, h⟩
      · omega
      · omega
      · exact absurd (hz (hzero.mp h)) (Nat.ne_of_lt hmore)
    rw [if_neg hno, State.protocolError_eq _ _ rfl rfl]
    exact State.choose_of_busy _ (by simp [State.abortPhaseOf, sendingLink])

/-! ### DATA -/

theorem State.grantOf_discarding (d : Bool) :
    s.grantOf { c with discarding := d } x t r = s.grantOf c x t r := by
  unfold State.grantOf
  split <;> rfl

theorem Carried.dataRemains_iff : (⟨c, x, t, r, p⟩ : Carried).dataRemains = true ↔
    c.dataEnded = false ∧ x.doneCount < x.count := by
  simp [Carried.dataRemains]

/-- A page is filled with a payload, the rest of it 0 (R129). -/
theorem readByte_fillPage {m : Memory} {q p : Page} {bytes : List Byte} {o : Nat} (hm : Memory.wf m) (ho : o < 64)
    (hlen : bytes.length ≤ 64) :
    Memory.readByte (Memory.fillPage m p bytes) (pageAddress q o) =
      if q = p then bytes.getD o 0 else Memory.readByte m (pageAddress q o) := by
  split
  · next h =>
    subst h
    rw [Memory.readByte_fillPage_in m q bytes o hm ho]
    simp only [pageImage, List.take_of_length_le hlen, List.getElem_append, List.getElem_replicate,
      List.getD_eq_getElem?_getD]
    split
    · next h => rw [List.getElem?_eq_getElem h]; rfl
    · next h => rw [List.getElem?_eq_none (Nat.not_lt.mp h)]; rfl
  · next h => exact Memory.readByte_fillPage_other m p q bytes o ho h

theorem State.afterData_of_head {k : Carried} (h : s.link.turn = .head) : s.afterData k = s.afterBurst k := if_pos h

theorem State.afterData_of_station {k : Carried} (h : s.link.turn = .station a) : s.afterData k = s.carry k :=
  if_neg (by simp [h])

/-- A READ with one more page filled by a payload (R61, R129). -/
def Carried.filledBy (k : Carried) (p : Page) (f : FrameBody) : Carried :=
  { k with
    x := { k.x with chain := k.x.chain ++ [p], doneCount := k.x.doneCount + f.payload.length }
    retry := 0
    c := { k.c with
      nextExpected := k.c.nextExpected + 1
      dataEnded := f.last || k.x.doneCount + f.payload.length == k.x.count } }

/-- A DATA frame that passes the checks of R61 fills the oldest reserved page. -/
theorem State.normalData_of_acceptable {k : Carried} {f : FrameBody} {p : Page} {rest : List Page}
    (hphase : k.c.phase = .awaiting) (hread : k.x.op = .read) (hseq : f.seq = k.c.nextExpected)
    (hdiscarding : ¬ k.c.discarding = true) (hreserved : s.stage.reserved = p :: rest)
    (haccept : dataAcceptable k s.stage.reserved f = true) :
    State.normalData f s k =
      { s with stage := { s.stage with
          reserved := rest, mem := Memory.fillPage s.stage.mem p f.payload } }.afterData (k.filledBy p f) := by
  unfold State.normalData
  split
  · rw [if_pos ⟨hseq, hdiscarding⟩, if_pos haccept]
    simp only [State.fillReserved, hreserved]
    rfl
  · next hno => exact absurd hread (hno hphase)

/-- A DATA frame out of sequence is discarded with the rest of its burst (R40, R41). -/
theorem State.normalData_of_discarded {k : Carried} {f : FrameBody} (hphase : k.c.phase = .awaiting)
    (hread : k.x.op = .read) (hno : ¬ (f.seq = k.c.nextExpected ∧ ¬ k.c.discarding = true)) :
    State.normalData f s k = s.afterData { k with c := { k.c with discarding := true } } := by
  unfold State.normalData
  split
  · rw [if_neg hno]
  · next hno => exact absurd hread (hno hphase)

/-- Settles O42. -/
theorem dataFillsReservedPages : Obligations.DataFillsReservedPages := by
  intro s c x t r f hwait hfits hphase hread
  have hkept (hturn : f.turn = false) (hlast : f.last = false) :=
    exec_of_normal_kept hwait hfits .data ⟨rfl, hturn, hlast⟩
  have hreturned (h : f.turn = true ∨ f.last = true) :=
    exec_of_normal hwait hfits .data (by rintro ⟨-, h1, h2⟩; simp [h1, h2] at h)
  obtain ⟨-, hop, hturn, -, hx, hst, -⟩ := hwait
  refine ⟨fun p rest hseq hdiscarding hended hshape hcount hprogress hreserved hwf => ?filled, fun hout =>
    ⟨fun hnoTurn hnoLast => (hkept hnoTurn hnoLast).trans (congrArg _ ?discarded), fun hback => ?burstOver⟩⟩
  case filled =>
    have hlen := hfits.2.2
    refine ⟨Memory.fillPage s.stage.mem p f.payload, ?_, Memory.fillPage_wf _ _ _ hwf,
      fun q o ho => readByte_fillPage hwf ho hlen⟩
    intro moved filled c' s'
    have haccept : dataAcceptable ⟨c, x, t, r, none⟩ s.stage.reserved f.toFrameBody = true := by
      have hone : 1 ≤ f.payload.length := by omega
      have hfull : f.last = true ∨ f.payload.length = 64 := hshape.symm.imp_left And.left
      simp [dataAcceptable, hone, hfull, hcount, hended, hreserved]
    have hmeans (u : State) (hu : u.stage = s.stage) :
        State.normalData f.toFrameBody u ⟨c, x, t, r, none⟩ =
          { u with stage := s'.stage }.afterData ⟨c', filled, t, 0, none⟩ := by
      rw [State.normalData_of_acceptable hphase hread hseq (by simp [hdiscarding]) (hu ▸ hreserved) (hu ▸ haccept), hu]
      rfl
    split
    · next hback =>
      refine (hreturned hback).trans (congrArg _ ?_)
      have hno : ¬ (filled.doneCount = c'.progress ∧ (⟨c', filled, t, 0, none⟩ : Carried).dataRemains = true) := by
        rintro ⟨h, -⟩
        have hone : 1 ≤ f.payload.length := by omega
        have hmoved : x.doneCount + f.payload.length = c.progress := h
        omega
      rw [hmeans (s.seen x.station).turnReturned rfl, State.afterData_of_head rfl, State.afterBurst, if_neg hno, State.grantPoint_eq _ _ hread rfl,
        State.choose_of_busy _ (State.grantOf_busy _ _ _ _)]
      exact State.grantOf_link (s := s') _ _ _ _ _
    · next hback =>
      rw [not_or, Bool.not_eq_true, Bool.not_eq_true] at hback
      refine (hkept hback.1 hback.2).trans (congrArg _ ?_)
      rw [hmeans (s.seen x.station).turnKept rfl, State.afterData_of_station
        (s := { (s.seen x.station).turnKept with stage := s'.stage }) (a := x.station) hturn,
        State.choose_of_busy _ (by simp [State.carry, State.setOp, State.withLink])]
      rfl
  case discarded =>
    have hno : ¬ (f.seq = c.nextExpected ∧ ¬ c.discarding = true) := by
      rintro ⟨h1, h2⟩
      exact hout.elim (fun h => h h1) h2
    rw [State.normalData_of_discarded hphase hread hno,
      State.afterData_of_station (s := (s.seen x.station).turnKept) (a := x.station) hturn,
      State.choose_of_busy _ (by simp [State.carry, State.setOp, State.withLink])]
    exact congrArg (fun v => ({ s.seen x.station with slots := v, link := _ } : State)) (slots_set_same hx hst)
  case burstOver =>
    have hno : ¬ (f.seq = c.nextExpected ∧ ¬ c.discarding = true) := by
      rintro ⟨h1, h2⟩
      exact hout.elim (fun h => h h1) h2
    have hmeans (u : State) (hu : u.link.turn = .head) : State.normalData f.toFrameBody u ⟨c, x, t, r, none⟩ =
        u.afterBurst ⟨{ c with discarding := true }, x, t, r, none⟩ := by
      rw [State.normalData_of_discarded hphase hread hno, State.afterData_of_head hu]
    have hexec := hreturned hback
    rw [hmeans (s.seen x.station).turnReturned rfl, State.afterBurst] at hexec
    intro noProgress
    have hiff : (x.doneCount = c.progress ∧
        (⟨{ c with discarding := true }, x, t, r, none⟩ : Carried).dataRemains = true) ↔ noProgress :=
      and_congr_right fun _ => Carried.dataRemains_iff
    refine ⟨fun h => hexec.trans (congrArg _ ?_), fun h hr => hexec.trans (congrArg _ ?_),
      fun h hr => hexec.trans (congrArg _ ?_)⟩
    · rw [if_neg (mt hiff.mp h), State.grantPoint_eq _ _ hread rfl,
        State.choose_of_busy _ (State.grantOf_busy _ _ _ _)]
      exact (State.grantOf_link _ _ _ _ _).trans (State.grantOf_discarding true)
    · rw [if_pos (hiff.mpr h), State.recover_of_lt (by exact hr), State.grantPoint_eq _ _ hread rfl,
        State.choose_of_busy _ (State.grantOf_busy _ _ _ _)]
      exact (State.grantOf_link _ _ _ _ _).trans (State.grantOf_discarding true)
    · rw [if_pos (hiff.mpr h), State.recover_of_ge (by exact hr), State.exhausted_eq _ _ rfl]
      exact State.choose_of_busy _ (by simp [State.abortPhaseOf, sendingLink])

end Sys2Proof.Machine
end

section
/-!
PROOF. Protocol errors, kind by kind (R66), frames that count for the turn only (R67, R144, R148, R150), and REPLY in its
reply slot (R77, R96, R106).
-/
set_option Elab.async false

namespace Sys2Proof.Machine

variable {s : State} {n : SlotNo} {x : Exchange} {t : Tag} {c : Connection} {a : StationNo} {f : Received} {i : Instr}
  {k : FrameKind} {phase : State → State} {r : Nat} {p : Option Fatal}

theorem State.turnReturned_turn : s.turnReturned.link.turn = .head := rfl

/-! ### Payloads -/

theorem oneByte_eq_some {g : FrameBody} {m : Nat} : oneByte g = some m ↔ ∃ b, g.payload = [b] ∧ b.toNat = m := by
  unfold oneByte
  split
  · next b h => simp [h]
  · next h =>
    refine ⟨nofun, fun ⟨b, hb, _⟩ => absurd hb (h b)⟩

theorem oneByte_eq_none {g : FrameBody} (h : g.payload.length ≠ 1) : oneByte g = none := by
  cases hb : oneByte g with
  | none => rfl
  | some m =>
    obtain ⟨b, hp, -⟩ := oneByte_eq_some.mp hb
    exact absurd (by rw [hp]; rfl) h

theorem fieldOf16_eq (low high : Byte) : fieldOf16 low high = (high ++ low).toNat := by
  rw [fieldOf16, BitVec.toNat_append, Nat.shiftLeft_eq, ← Nat.shiftLeft_eq, ← Nat.shiftLeft_add_eq_or_of_lt low.isLt,
    Nat.shiftLeft_eq]
  omega

theorem closePermitted_eq_false {g : FrameBody} {op : Op}
    (h : g.payload.length = 0 ∨ (if op = .control then 9 else 1) < g.payload.length) : closePermitted op g = false := by
  cases op with
  | control =>
    rw [if_pos rfl] at h
    simp only [closePermitted, Bool.and_eq_false_iff, decide_eq_false_iff_not]
    omega
  | _ =>
    rw [if_neg (by simp)] at h
    simp only [closePermitted, beq_eq_false_iff_ne]
    omega

/-! ### Protocol errors (R66) -/

theorem State.normalAccept_of_error {g : FrameBody} {q : Carried}
    (h : q.c.phase ≠ .opening ∨ q.x.op = .control ∨ g.payload.length ≠ 1 ∨
      (q.x.op = .write ∧ ∃ credit, g.payload = [credit] ∧ (credit = 0 ∨ 5 ≤ credit.toNat))) :
    State.normalAccept g s q = s.protocolError q := by
  unfold State.normalAccept
  split
  · next hphase hread hbyte =>
    obtain ⟨b, hb, -⟩ := oneByte_eq_some.mp hbyte
    rcases h with h | h | h | ⟨h, -⟩
    · exact absurd hphase h
    · rw [hread] at h; cases h
    · exact absurd (by rw [hb]; rfl) h
    · rw [hread] at h; cases h
  · next credit hphase hwrite hbyte =>
    obtain ⟨b, hb, rfl⟩ := oneByte_eq_some.mp hbyte
    refine if_neg fun ⟨hlow, hhigh⟩ => ?_
    rcases h with h | h | h | ⟨-, credit, hcredit, h⟩
    · exact h hphase
    · rw [hwrite] at h; cases h
    · exact h (by rw [hb]; rfl)
    · obtain rfl : b = credit := by simpa using hb.symm.trans hcredit
      rcases h with rfl | h
      · exact absurd hlow (by decide)
      · omega
  · rfl

theorem State.normalRefuse_of_error {g : FrameBody} {q : Carried}
    (h : q.c.phase ≠ .opening ∨ g.payload.length ≠ 1 ∨ g.payload = [0]) :
    State.normalRefuse g s q = s.protocolError q := by
  unfold State.normalRefuse
  split
  · next reason hphase hbyte =>
    obtain ⟨b, hb, hreason⟩ := oneByte_eq_some.mp hbyte
    rcases h with h | h | h
    · exact absurd hphase h
    · exact absurd (by rw [hb]; rfl) h
    · obtain rfl : b = 0 := by simpa using hb.symm.trans h
      cases hreason
  · rfl

theorem State.normalDefer_of_error {g : FrameBody}
    (h : g.payload.length ≠ 2 ∨ ∃ low high, g.payload = [low, high] ∧ ¬ isParkPoint c x (high ++ low).toNat) :
    State.normalDefer g s ⟨c, x, t, r, p⟩ = s.protocolError ⟨c, x, t, r, p⟩ := by
  unfold State.normalDefer
  split
  · next offset hoffset =>
    refine if_neg fun hvalid => ?_
    unfold deferOffset at hoffset
    split at hoffset
    · next low high hpay =>
      obtain rfl := Option.some.inj hoffset
      rcases h with h | ⟨low', high', hpay', h⟩
      · exact h (by rw [hpay]; rfl)
      · obtain ⟨rfl, rfl⟩ : low = low' ∧ high = high' := by simpa using hpay.symm.trans hpay'
        exact h (fieldOf16_eq low high ▸ (deferValid_iff _).mp hvalid)
    · cases hoffset
  · rfl

theorem State.normalAck_of_error {g : FrameBody}
    (h : c.phase ≠ .awaiting ∨ x.op ≠ .write ∨ g.payload.length ≠ 1 ∨
      ∃ credit, g.payload = [credit] ∧
        (5 ≤ credit.toNat ∨ c.burst < (g.seq - c.oldest).toNat ∨
          (credit = 0 ∧ x.doneCount + 64 * (g.seq - c.oldest).toNat < x.count))) :
    State.normalAck g s ⟨c, x, t, r, p⟩ = s.protocolError ⟨c, x, t, r, p⟩ := by
  unfold State.normalAck
  split
  · next credit hphase hwrite hbyte =>
    obtain ⟨b, hb, rfl⟩ := oneByte_eq_some.mp hbyte
    refine if_neg fun ⟨hcredit, hburst, hall⟩ => ?_
    rcases h with h | h | h | ⟨credit, hcr, h⟩
    · exact h hphase
    · exact h hwrite
    · exact h (by rw [hb]; rfl)
    · obtain rfl : b = credit := by simpa using hb.symm.trans hcr
      rcases h with h | h | ⟨rfl, h⟩
      · omega
      · exact Nat.not_lt.mpr hburst h
      · have hcount : min x.count (x.doneCount + 64 * (g.seq - c.oldest).toNat) = x.count := hall rfl
        omega
  · rfl

theorem State.normalData_of_error {g : FrameBody}
    (h : c.phase ≠ .awaiting ∨ x.op ≠ .read ∨
      (g.seq = c.nextExpected ∧ c.discarding = false ∧
        (g.payload.length = 0 ∨ (g.last = false ∧ g.payload.length ≠ 64) ∨
          x.count < x.doneCount + g.payload.length ∨ c.dataEnded = true ∨ s.stage.reserved = []))) :
    State.normalData g s ⟨c, x, t, r, p⟩ = s.protocolError ⟨c, x, t, r, p⟩ := by
  unfold State.normalData
  split
  · next hphase hread =>
    rcases h with h | h | ⟨hseq, hdiscarding, h⟩
    · exact absurd hphase h
    · exact absurd hread h
    · have hno : ¬ dataAcceptable ⟨c, x, t, r, p⟩ s.stage.reserved g = true := by
        simp only [dataAcceptable, Bool.and_eq_true, Bool.or_eq_true, Bool.not_eq_true', decide_eq_true_eq, beq_iff_eq]
        rintro ⟨⟨⟨⟨hone, hshape⟩, hcount⟩, hended⟩, hreserved⟩
        rcases h with h | ⟨hlast, hlen⟩ | h | h | h
        · omega
        · exact hshape.elim (by simp [hlast]) hlen
        · omega
        · rw [hended] at h; cases h
        · rw [h] at hreserved; cases hreserved
      rw [if_pos ⟨hseq, by simp [hdiscarding]⟩, if_neg hno]
  · rfl

/-- Every protocol error of R66 is taken as one. -/
theorem ReceiveRow.phase_of_error (hrow : ReceiveRow f i k phase) (hop : s.link.op = .exchange c)
    (hx : s.slots[c.slot] = some x) (hst : x.st = .connected t r none) (habort : c.abortSent = false)
    (hturn : ∀ a, s.link.turn ≠ .replySlot a) (herr : isProtocolError c x s.stage.reserved i) :
    phase s = s.protocolError ⟨c, x, t, r, none⟩ := by
  have hnormal (g : State → Carried → State) : s.inOperation g = g s ⟨c, x, t, r, none⟩ :=
    State.inOperation_normal hop hx hst habort
  have hk := s.carried_of c x t r none hop hx hst
  cases hrow with
  | accept => exact (hnormal _).trans (State.normalAccept_of_error herr)
  | refuse =>
    have hrun : s.takeRefuse f.toFrameBody = State.normalRefuse f.toFrameBody s ⟨c, x, t, r, none⟩ := by
      simp [State.takeRefuse, hop, hk, habort]
    exact hrun.trans (State.normalRefuse_of_error herr)
  | defer => exact (hnormal _).trans (State.normalDefer_of_error herr)
  | close =>
    simp only [State.takeClose, hop, hk, habort, Bool.false_eq_true, if_false, closePermitted_eq_false herr]
  | ack => exact (hnormal _).trans (State.normalAck_of_error herr)
  | data => exact (hnormal _).trans (State.normalData_of_error herr)
  | reply =>
    have hrun : s.takeReply f.toFrameBody = s.inOperation State.protocolError := by
      unfold State.takeReply
      split
      · next a h => exact absurd h (hturn a)
      · rfl
    exact hrun.trans (hnormal _)
  | headOnly => exact hnormal _

/-- Settles O43. -/
theorem protocolErrorsCondemn : Obligations.ProtocolErrorsCondemn := by
  intro s c x t r f kind i hwait hfits herr hi
  obtain ⟨k, phase, hrow⟩ := receiveRow_of_mem hi
  have hreturned := exec_of_awaits hwait hfits hrow
  have hkept := exec_of_awaits_kept hwait hfits hrow
  obtain ⟨-, hop, hturn, -, hx, hst, habort⟩ := hwait
  refine ⟨fun hback => (hreturned ?_).trans (congrArg _ ?_), fun hdata hnoTurn hnoLast =>
    (hkept ⟨hdata, hnoTurn, hnoLast⟩).trans (congrArg _ ?_)⟩
  · rintro ⟨hdata, hnoTurn, hnoLast⟩
    simp [hdata, hnoTurn, hnoLast] at hback
  · rw [hrow.phase_of_error (s := (s.seen x.station).turnReturned) hop hx hst habort (by simp [State.turnReturned]) herr,
      State.protocolError_eq _ _ rfl rfl]
    exact State.choose_of_busy _ (by simp [State.abortPhaseOf, sendingLink])
  · have hstation (a : StationNo) : (s.seen x.station).turnKept.link.turn ≠ .replySlot a := by
      show s.link.turn ≠ .replySlot a
      simp [hturn]
    have hnotHead : ¬ (s.seen x.station).turnKept.link.turn = .head := by
      show ¬ s.link.turn = .head
      simp [hturn]
    rw [hrow.phase_of_error (s := (s.seen x.station).turnKept) hop hx hst habort hstation herr, State.protocolError,
      State.abortAtTurn, if_neg hnotHead, State.choose_of_busy _ (by simp [State.carry, State.setOp, State.withLink])]
    exact congrArg (fun o => ({ s.seen x.station with
      slots := _, link := { s.link with op := o, replyTimer := some s.host.replyTime } } : State)) hop.symm

/-! ### Frames that count for the turn only -/

theorem Carried.condemned_of_waiting {q : Carried} {g h : Fatal} (hw : q.waiting = some g) : q.condemned h = q := by
  cases q
  cases hw
  rfl

/-- With a pending status set, a frame that ends nothing leads to ABORT at the head's turn (R67, R146). -/
theorem ReceiveRow.phase_of_pending {q : Fatal} (hrow : ReceiveRow f i k phase) (hop : s.link.op = .exchange c)
    (hx : s.slots[c.slot] = some x) (hst : x.st = .connected t r (some q)) (habort : c.abortSent = false)
    (hturn : ∀ a, s.link.turn ≠ .replySlot a) (hrefuse : i = .refuseReceived f → f.payload.length ≠ 1)
    (hclose : i = .closeReceived f → f.payload.length = 0 ∨ (if x.op = .control then 9 else 1) < f.payload.length) :
    phase s = s.abortAtTurn ⟨c, x, t, r, some q⟩ := by
  have hk := s.carried_of c x t r (some q) hop hx hst
  have hother (g : State → Carried → State) : s.inOperation g = s.abortAtTurn ⟨c, x, t, r, some q⟩ := by
    rw [State.inOperation_of_carried hk]
    simp [habort]
  cases hrow with
  | refuse =>
    simp only [State.takeRefuse, hop, hk, habort, oneByte_eq_none (hrefuse rfl), Bool.false_eq_true, if_false]
  | close =>
    simp only [State.takeClose, hop, hk, habort, Bool.false_eq_true, if_false, closePermitted_eq_false (hclose rfl)]
    rw [State.protocolError, Carried.condemned_of_waiting rfl]
  | reply =>
    unfold State.takeReply
    split
    · next a h => exact absurd h (hturn a)
    · exact hother _
  | _ => exact hother _

/-- After ABORT every frame but CLOSE counts for the turn only (R144). -/
theorem ReceiveRow.phase_of_abortSent {q : Fatal} (hrow : ReceiveRow f i k phase) (hop : s.link.op = .exchange c)
    (hx : s.slots[c.slot] = some x) (hst : x.st = .connected t r (some q)) (habort : c.abortSent = true)
    (hturn : ∀ a, s.link.turn ≠ .replySlot a) (hclose : i ≠ .closeReceived f) :
    phase s = s.abortSentOther ⟨c, x, t, r, some q⟩ := by
  have hk := s.carried_of c x t r (some q) hop hx hst
  have hother (g : State → Carried → State) : s.inOperation g = s.abortSentOther ⟨c, x, t, r, some q⟩ := by
    rw [State.inOperation_of_carried hk]
    simp [habort]
  cases hrow with
  | refuse => simp only [State.takeRefuse, hop, hk, habort, if_true]
  | close => exact absurd rfl hclose
  | reply =>
    unfold State.takeReply
    split
    · next a h => exact absurd h (hturn a)
    · exact hother _
  | _ => exact hother _

/-- Where no exchange is on the link, every frame but CLOSE is taken by the operation alone. -/
theorem ReceiveRow.phase_of_other {u : State} (hrow : ReceiveRow f i k phase) (hop : ∀ c, s.link.op ≠ .exchange c)
    (hturn : ∀ a, s.link.turn ≠ .replySlot a) (hclose : i ≠ .closeReceived f)
    (hother : ∀ g, s.inOperation g = u) : phase s = u := by
  cases hrow with
  | refuse =>
    unfold State.takeRefuse
    split
    · next c q h _ => exact absurd h (hop c)
    · exact hother _
  | close => exact absurd rfl hclose
  | reply =>
    unfold State.takeReply
    split
    · next a h => exact absurd h (hturn a)
    · exact hother _
  | _ => exact hother _

/-- Settles O44. -/
theorem framesThatCountForTheTurnOnly : Obligations.FramesThatCountForTheTurnOnly := by
  intro s x t q r f kind i returns hheld hsend hlen hi hreturns
  obtain ⟨k, phase, hrow⟩ := receiveRow_of_mem hi
  have hback (h : returns = true) : ¬ (i = .dataReceived f ∧ f.turn = false ∧ f.last = false) := fun hd => by
    rw [hreturns.mpr hd] at h
    cases h
  refine ⟨fun c hop hturn hx hst hfits => ?connection, fun n limit hop hturn hx hst hfits hclose => ?visit,
    fun w e es hwait hfits hclose => ?cleanup⟩
  case connection =>
    have hhears : s.hears f.withExpiry := State.hears_of_connected hop hsend
    have htag := State.concernedTag_of_connected hop hx hst
    have hreturned (h : returns = true) := hrow.exec_returned hheld hhears hturn hfits htag (hback h)
    have hhead (a : StationNo) : (s.seen x.station).turnReturned.link.turn ≠ .replySlot a := by simp [State.turnReturned]
    refine ⟨fun h => ?kept, fun h habort hrefuse hclose => (hreturned h).trans (congrArg _ ?pending),
      fun h habort hclose => ⟨fun hr => (hreturned h).trans (congrArg _ ?repeats),
        fun hr => (hreturned h).trans (congrArg _ ?ends)⟩⟩
    case kept =>
      have hd := hreturns.mp h
      refine (hrow.exec_kept hheld hhears hturn hfits htag hd).trans (congrArg _ ?_)
      have hstation (a : StationNo) : (s.seen x.station).turnKept.link.turn ≠ .replySlot a := by
        show s.link.turn ≠ .replySlot a
        simp [hturn]
      have hnotHead : ¬ (s.seen x.station).turnKept.link.turn = .head := by
        show ¬ s.link.turn = .head
        simp [hturn]
      have hbusy : (s.seen x.station).turnKept.link.op ≠ .idle := by
        show s.link.op ≠ .idle
        simp [hop]
      cases habort : c.abortSent with
      | true =>
        rw [hrow.phase_of_abortSent (s := (s.seen x.station).turnKept) hop hx hst habort hstation (by simp [hd.1]),
          State.abortSentOther, if_neg hnotHead, State.choose_of_busy _ hbusy]
        rfl
      | false =>
        rw [hrow.phase_of_pending (s := (s.seen x.station).turnKept) hop hx hst habort hstation (by simp [hd.1])
          (by simp [hd.1]), State.abortAtTurn, if_neg hnotHead,
          State.choose_of_busy _ (by simp [State.carry, State.setOp, State.withLink])]
        refine (congrArg (fun v => ({ s.seen x.station with
          slots := v, link := { s.link with op := .exchange c, replyTimer := some s.host.replyTime } } : State))
          (slots_set_same hx hst)).trans ?_
        rw [← hop]
        rfl
    case pending =>
      rw [hrow.phase_of_pending (s := (s.seen x.station).turnReturned) hop hx hst habort hhead hrefuse hclose,
        State.abortAtTurn, if_pos State.turnReturned_turn, State.enterAbortPhase_eq _ _ q rfl]
      exact State.choose_of_busy _ (by simp [State.abortPhaseOf, sendingLink])
    case repeats =>
      rw [hrow.phase_of_abortSent (s := (s.seen x.station).turnReturned) hop hx hst habort hhead hclose,
        State.abortSentOther, if_pos State.turnReturned_turn, State.abortRecovery_repeats (by exact hr)]
      exact State.choose_of_busy _ (by simp [sendingLink])
    case ends =>
      rw [hrow.phase_of_abortSent (s := (s.seen x.station).turnReturned) hop hx hst habort hhead hclose,
        State.abortSentOther, if_pos State.turnReturned_turn, State.abortRecovery_ends (k := ⟨c, x, t, r, some q⟩) hr rfl (by exact hx)]
      rfl
  case visit =>
    have hhears : s.hears f.withExpiry := State.hears_of_listening hsend (by simp [hop]) (by simp [hop])
    have htag : s.concernedTag = some t := by rw [State.concernedTag_of_visit hop hx, hst]; rfl
    have hmeans (u : State) (hu : u.link.op = .abortVisit n limit) (ht : ∀ a, u.link.turn ≠ .replySlot a) :
        phase u = u.visitOther n limit :=
      hrow.phase_of_other (by simp [hu]) ht hclose fun g => by simp only [State.inOperation, hu]
    have hreturned (h : returns = true) : exec i s =
        .next ((s.seen x.station).turnReturned.visitRecovery n limit).choose := by
      refine (hrow.exec_returned hheld hhears hturn hfits htag (hback h)).trans (congrArg _ ?_)
      rw [hmeans (s.seen x.station).turnReturned hop (by simp [State.turnReturned]), State.visitOther, if_pos State.turnReturned_turn]
    refine ⟨fun h => (hrow.exec_kept hheld hhears hturn hfits htag (hreturns.mp h)).trans (congrArg _ ?kept),
      fun h hr => (hreturned h).trans (congrArg _ ?repeats), fun h hr => (hreturned h).trans (congrArg _ ?ends)⟩
    case kept =>
      have hstation (a : StationNo) : (s.seen x.station).turnKept.link.turn ≠ .replySlot a := by
        show s.link.turn ≠ .replySlot a
        simp [hturn]
      have hnotHead : ¬ (s.seen x.station).turnKept.link.turn = .head := by
        show ¬ s.link.turn = .head
        simp [hturn]
      have hbusy : (s.seen x.station).turnKept.link.op ≠ .idle := by
        show s.link.op ≠ .idle
        simp [hop]
      rw [hmeans (s.seen x.station).turnKept hop hstation, State.visitOther, if_neg hnotHead,
        State.choose_of_busy _ hbusy]
      rfl
    case repeats =>
      have hop' : (s.seen x.station).turnReturned.link.op = .abortVisit n limit := hop
      rw [State.visitRecovery_repeats (s := (s.seen x.station).turnReturned) hx hst hr, hop']
      exact State.choose_of_busy _ (by simp [sendingLink])
    case ends =>
      rw [State.visitRecovery_ends (s := (s.seen x.station).turnReturned) hx hst hr]
      rfl
  case cleanup =>
    have hreturned (h : returns = true) := exec_of_cleanup hwait hfits hrow (hback h)
    obtain ⟨-, hop, hw, hturn, -⟩ := hwait
    have hhears : s.hears f.withExpiry := State.hears_of_listening hsend (by simp [hop]) (by simp [hop])
    have htag := State.concernedTag_of_cleanup hop hw
    have hmeans (u : State) (hu : u.link.op = .poll w) (ht : ∀ a, u.link.turn ≠ .replySlot a) :
        phase u = u.cleanupOther w :=
      hrow.phase_of_other (by simp [hu]) ht hclose fun g => by simp only [State.inOperation, hu]
    have hop' : (s.seen e.station).turnReturned.link.op = .poll w := hop
    have hhead : (s.seen e.station).turnReturned.link.turn = .head := rfl
    refine ⟨fun h => (hrow.exec_kept hheld hhears hturn hfits htag (hreturns.mp h)).trans (congrArg _ ?kept),
      fun h he => (hreturned h).trans (congrArg _ ?unbound),
      fun n m h he hx hst hes => (hreturned h).trans (congrArg _ ?bound)⟩
    case kept =>
      have hstation (a : StationNo) : (s.seen e.station).turnKept.link.turn ≠ .replySlot a := by
        show s.link.turn ≠ .replySlot a
        simp [hturn]
      have hnotHead : ¬ (s.seen e.station).turnKept.link.turn = .head := by
        show ¬ s.link.turn = .head
        simp [hturn]
      have hbusy : (s.seen e.station).turnKept.link.op ≠ .idle := by
        show s.link.op ≠ .idle
        simp [hop]
      rw [hmeans (s.seen e.station).turnKept hop hstation, State.cleanupOther, if_neg hnotHead,
        State.choose_of_busy _ hbusy]
      rfl
    case unbound =>
      rw [hmeans _ hop' (by simp [State.turnReturned])]
      simp only [State.cleanupOther, hhead, if_true, hw, he]
      rw [State.nextCleanup_eq hop' (congrArg List.tail hw)]
      exact State.cleanupGoesOn_link _ _ _
    case bound =>
      rw [hmeans _ hop' (by simp [State.turnReturned])]
      simp only [State.cleanupOther, hhead, if_true, hw, he]
      rw [State.endAborting_eq (s := (s.seen e.station).turnReturned) (st := none) hx hst,
        State.nextCleanup_afterDone (s := (s.seen e.station).turnReturned) hop' hw hes rfl]
      exact State.cleanupGoesOn_link (s := (s.seen e.station).afterDone n x q.final none []) _ _ _

end Sys2Proof.Machine
end

section
/-!
PROOF. REPLY in its reply slot (R76 to R82, R96, R106), the ends of the head's frames (R34, R53, R71, R105), and the bytes
of a frame (section 11.1).
-/
set_option Elab.async false

namespace Sys2Proof.Machine

variable {s : State} {n : SlotNo} {x : Exchange} {t : Tag} {c : Connection} {a : StationNo} {f : Received} {w : PollWindow}
  {rest : List StationNo} {code : Option Byte} {flags : Byte}

/-! ### REPLY in its reply slot -/

theorem State.seen_link : (s.seen a).link = s.link := rfl

theorem State.attended_link (code : Option Byte) : (s.attended a code).link = s.link := by
  cases code <;> rfl

theorem State.slotGoesOn_link (l : LinkEngine) : { s with link := l }.slotGoesOn w rest = s.slotGoesOn w rest := by
  cases rest with
  | nil => exact State.cleanupGoesOn_link l _ _
  | cons => rfl

theorem State.attended_setLink (l : LinkEngine) (code : Option Byte) :
    { s with link := l }.attended a code = { s.attended a code with link := l } := by
  cases code <;> rfl

/-- A REPLY is accepted in the reply slot of its station whatever its tag (R30), and restarts no timer (R36). -/
theorem exec_reply_of_slotOpen (h : s.slotOpenFor w a rest) (haddr : f.address = addressOf a)
    (hlen : f.payload.length ≤ 64) :
    exec (.replyReceived f) s = .next ((s.seen a).replyInSlot f.toFrameBody a).choose := by
  obtain ⟨hheld, hop, hturn, hsend, -⟩ := h
  have hhears : s.hears f.withExpiry := State.hears_of_listening hsend (by simp [hop]) (by simp [hop])
  have hdeaf : ¬ s.deaf f.withExpiry = true := fun hd => (s.deaf_iff _).mp hd hhears
  have hturn' : (s.seen a).link.turn = .replySlot a := hturn
  refine (next_taken s _ hheld).trans (congrArg _ ?_)
  simp only [State.receive, if_neg hdeaf, if_neg (Nat.not_lt.mpr hlen), State.acceptedFrom, hturn, haddr, and_self,
    if_true, State.stationSeen_eq, State.takeTurn, hturn', State.takeReply]

/-- What a well-formed REPLY does with the recall and the attention report it carries. -/
theorem exec_reply_of_fields {r : ReplyFields} {u : State} (h : s.slotOpenFor w a rest) (haddr : f.address = addressOf a)
    (hlen : f.payload.length ≤ 64) (hfields : replyFields f.payload = some r)
    (hu : (s.presenceTaken a).takeRecall a r.recalls = u) {w' : PollWindow} (hop : u.link.op = .poll w')
    (hleft : w'.left = a :: rest) :
    exec (.replyReceived f) s = .next ((u.attended a r.attention).slotGoesOn w' rest) := by
  refine (exec_reply_of_slotOpen h haddr hlen).trans (congrArg _ ?_)
  have hrun : (s.seen a).replyInSlot f.toFrameBody a = (u.attended a r.attention).endReplySlot := by
    simp only [State.replyInSlot, hfields, State.takeAttention_eq, ← hu]
    rfl
  rw [hrun]
  exact State.endReplySlot_eq _ w' a rest (by rw [State.attended_link, hop]) hleft

theorem replyFields_of_attention (hflag : flags.getLsbD 0 = false) {tail : List Byte} (h : attentionIs flags tail code) :
    replyFields (flags :: tail) = some { recalls := none, attention := code } := by
  rcases h with ⟨hbit, rfl, rfl⟩ | ⟨hbit, b, rfl, rfl⟩ <;> simp only [replyFields, hflag, hbit]

theorem replyFields_of_recall {named low high : Byte} (hflag : flags.getLsbD 0 = true) {tail : List Byte}
    (h : attentionIs flags tail code) :
    replyFields (flags :: named :: low :: high :: tail) =
      some { recalls := some (named, fieldOf16 low high), attention := code } := by
  rcases h with ⟨hbit, rfl, rfl⟩ | ⟨hbit, b, rfl, rfl⟩ <;> simp only [replyFields, hflag, hbit]

theorem replyFields_of_malformed {tail : List Byte}
    (h : tail.length ≠ (if flags.getLsbD 0 then 3 else 0) + (if flags.getLsbD 1 then 1 else 0)) :
    replyFields (flags :: tail) = none := by
  simp only [replyFields]
  split <;> simp_all

theorem attentionIs_length {tail : List Byte} (h : attentionIs flags tail code) : tail.length ≤ 1 := by
  rcases h with ⟨-, rfl, -⟩ | ⟨-, b, rfl, -⟩ <;> simp

/-- Settles O45. -/
theorem replyPassesAttentionOn : Obligations.ReplyPassesAttentionOn := by
  intro s w a rest f hopen haddr
  have hop : s.link.op = .poll w := hopen.2.1
  have hleft : w.left = a :: rest := hopen.2.2.2.2
  refine ⟨fun flags tail code hpay hflag hatt => ?_, fun hlen hbad => ?_⟩
  · have hlen : f.payload.length ≤ 64 := by
      have htail := attentionIs_length hatt
      rw [hpay, List.length_cons]
      omega
    exact exec_reply_of_fields (r := { recalls := none, attention := code }) hopen haddr hlen
      (hpay ▸ replyFields_of_attention hflag hatt) rfl hop hleft
  · have hnone : replyFields f.payload = none := by
      rcases hbad with h | ⟨flags, tail, h, hshape⟩
      · rw [h]; rfl
      · rw [h, replyFields_of_malformed hshape]
    refine (exec_reply_of_slotOpen hopen haddr hlen).trans (congrArg _ ?_)
    simp only [State.replyInSlot, hnone, State.linkFault_eq]
    exact State.endReplySlot_eq _ w a rest hop hleft

theorem State.presenceTaken_tagMap (s : State) (a b : StationNo) :
    (s.presenceTaken a).stations[b].tagMap = s.stations[b].tagMap := by
  by_cases h : a = b
  · subst h
    have hget : (s.presenceTaken a).stations[a] = { (s.seen a).stations[a] with backoff := false } :=
      Vector.getElem_set_self a.isLt
    rw [hget]
    exact s.seen_tagMap a a
  · have hget : (s.presenceTaken a).stations[b] = (s.seen a).stations[b] :=
      Vector.getElem_set_ne a.isLt b.isLt fun e => h (Fin.ext e)
    rw [hget]
    exact s.seen_tagMap a b

theorem State.enterCleanup_eq (e : CleanupEntry) (hop : s.link.op = .poll w) :
    s.enterCleanup e = { s with link := { s.link with op := .poll (w.withEntry e) } } := by
  simp only [State.enterCleanup, State.withLink, hop]
  rfl

/-- Settles O46. -/
theorem recallIsJudged : Obligations.RecallIsJudged := by
  intro s w a rest f flags named low high tail code hopen haddr hpay hflag hatt o cleared
  have hop : cleared.link.op = .poll w := hopen.2.1
  have hleft : w.left = a :: rest := hopen.2.2.2.2
  have hlen : f.payload.length ≤ 64 := by
    have htail := attentionIs_length hatt
    rw [hpay]
    simp only [List.length_cons]
    omega
  have hoffset : fieldOf16 low high = o := fieldOf16_eq low high
  have hfields : replyFields f.payload = some { recalls := some (named, o), attention := code } := by
    rw [hpay, replyFields_of_recall hflag hatt, hoffset]
  refine ⟨fun hnamed => ?outside, fun g hg => ?judged⟩
  case outside =>
    refine exec_reply_of_fields hopen haddr hlen hfields ?_ hop hleft
    simp only [State.takeRecall, dif_neg (Nat.not_lt.mpr hnamed), State.linkFault_eq]
    rfl
  case judged =>
    have hlt : named.toNat < 8 := hg ▸ g.isLt
    have hjudge : (s.presenceTaken a).takeRecall a (some (named, o)) = cleared.judgeRecall a g o := by
      have hfin : (⟨named.toNat, hlt⟩ : Tag) = g := Fin.ext hg
      simp only [State.takeRecall, dif_pos hlt, hfin]
      rfl
    have hmap : cleared.stations[a].tagMap[g] = s.stations[a].tagMap[g] := by
      rw [State.presenceTaken_tagMap]
    have hentry (e : CleanupEntry) (u : State) (hu : u.link = cleared.link)
        (hr : cleared.judgeRecall a g o = u.enterCleanup e) :
        exec (.replyReceived f) s = .next ((u.attended a code).slotGoesOn (w.withEntry e) rest) := by
      have hpoll : u.link.op = .poll w := by rw [hu]; exact hop
      rw [State.enterCleanup_eq e hpoll] at hr
      refine (exec_reply_of_fields hopen haddr hlen hfields (hjudge.trans hr) rfl hleft).trans (congrArg _ ?_)
      rw [State.attended_setLink, State.slotGoesOn_link]
    have hplain (u : State) (hu : u.link = cleared.link) (hr : cleared.judgeRecall a g o = u) :
        exec (.replyReceived f) s = .next ((u.attended a code).slotGoesOn w rest) :=
      exec_reply_of_fields hopen haddr hlen hfields (hjudge.trans hr) (by rw [hu]; exact hop) hleft
    refine ⟨fun hnone => ?orphan, fun n x hbound hx => ?bound⟩
    case orphan =>
      refine hentry { station := a, tag := g, slot := none } (cleared.faulted .orphan) rfl ?_
      simp only [State.judgeRecall, hmap.trans hnone, State.orphan, State.linkFault_eq]
    case bound =>
      have hx' : cleared.slots[n] = some x := hx
      have hbound' : cleared.stations[a].tagMap[g] = some n := hmap.trans hbound
      refine ⟨fun t d hst ho => hplain _ rfl ?_, fun t d hst ho => hplain _ rfl ?_, fun t hst ho hfree => hplain _ rfl ?_,
        fun t hst hwhy => hplain _ rfl ?_, fun t q k hst => hentry _ _ rfl ?_⟩
      · simp only [State.judgeRecall, hbound', hx', hst, if_pos ho, State.recalled_eq]
      · simp only [State.judgeRecall, hbound', hx', hst, if_neg ho, State.condemn_eq]
      · have hfree' : cleared.stage.free ≠ [] := hfree
        simp only [State.judgeRecall, hbound', hx', hst, if_pos (And.intro ho hfree'), State.recalled_eq]
      · have hno : ¬ (o = x.doneCount ∧ cleared.stage.free ≠ []) := fun ⟨h1, h2⟩ =>
          hwhy.elim (fun h => h h1) fun h => h2 h
        simp only [State.judgeRecall, hbound', hx', hst, if_neg hno]
      · simp only [State.judgeRecall, hbound', hx', hst]

/-! ### The ends of the head's frames -/

theorem stationAt_addressOf (a : StationNo) : stationAt (addressOf a).toNat = some a := by
  have h : (addressOf a).toNat = a.val + 1 := by
    simp only [addressOf, BitVec.toNat_ofNat]
    omega
  rw [h, stationAt_address]

theorem State.passTo_eq {g : Frame} (h : g.body.address = addressOf a) : s.passTo g = s.passTurn a := by
  simp only [State.passTo, h, stationAt_addressOf]

theorem State.sent_of_kind {g : Frame} {kind : FrameKind} {next : State → Frame → State} (h : s.link.sending = some g)
    (hk : g.kind = kind) : s.sent kind next = next s g := by
  simp only [State.sent, h, if_pos hk]

/-- Settles O47. -/
theorem sentFramesPassTheTurnOrEnd : Obligations.SentFramesPassTheTurnOrEnd := by
  refine ⟨fun s f a c hheld hsend haddr hc => ?pass, fun s f hheld hsend => ⟨fun hk hop => ?parked,
    fun w a rest hk hop hmask => ?poll⟩⟩
  case pass =>
    have hsent (kind : FrameKind) (hk : f.kind = kind) : s.sent kind State.passTo = s.passTurn a :=
      (State.sent_of_kind hsend hk).trans (State.passTo_eq haddr)
    simp only [List.mem_cons, Prod.mk.injEq, List.not_mem_nil, or_false] at hc
    rcases hc with ⟨rfl, hk⟩ | ⟨rfl, hk⟩ | ⟨rfl, hk⟩ | ⟨rfl, hk⟩ <;>
      exact (next_taken s _ hheld).trans (congrArg _ (hsent _ hk))
  case parked =>
    refine (next_taken s _ hheld).trans (congrArg _ ((State.sent_of_kind hsend hk).trans ?_))
    simp only [State.parkedDone, hop, State.endOp_eq]
  case poll =>
    refine (next_taken s _ hheld).trans (congrArg _ ((State.sent_of_kind hsend hk).trans ?_))
    have hdone : s.pollDone f = (s.withArb fun g => { g with pollDue := false, pollRequested := false }).openReplySlot w
        w.mask := by
      simp only [State.pollDone, hop]
    rw [hdone, hmask]
    rfl

/-- Settles O48. -/
theorem dataFrameSentGoesOn : Obligations.DataFrameSentGoesOn := by
  intro s c x t r p f hheld hop hx hst hsend hk haddr i
  have hexec := (next_taken s (·.sent .data State.dataSent) hheld).trans
    (congrArg _ (State.sent_of_kind (next := State.dataSent) hsend hk))
  have hcarried := s.carried_of c x t r p hop hx hst
  refine ⟨fun hturn => hexec.trans (congrArg _ ?passes), fun hturn hp =>
    ⟨dataFrame s.stage.mem ⟨{ c with nextSend := f.body.seq + 1 }, x, t, r, none⟩ i, hexec.trans (congrArg _ ?next),
      rfl, rfl, rfl, ?seq, beq_iff_eq, ?last, fun hwrite hrange hframes => ?bytes⟩,
    fun hturn q hp => hexec.trans (congrArg _ ?abort)⟩
  case passes =>
    simp only [State.dataSent, hcarried, hturn, if_true]
    rw [State.passTo_eq haddr]
    exact congrArg (fun v => ({ s with slots := v, link := _ } : State)) (slots_set_same hx hst)
  case next =>
    subst hp
    simp only [State.dataSent, hcarried, hturn, Bool.false_eq_true, if_false, Option.isSome_none]
    exact congrArg (fun v => ({ s with slots := v, link := _ } : State)) (slots_set_same hx hst)
  case seq =>
    show c.oldest + BitVec.ofNat 3 (f.body.seq + 1 - c.oldest).toNat = f.body.seq + 1
    rw [BitVec.ofNat_toNat, BitVec.setWidth_eq, BitVec.add_comm, BitVec.sub_add_cancel]
  case last =>
    show (x.doneCount / 64 + i + 1 == frames x.count) = true ↔ _
    exact beq_iff_eq
  case bytes =>
    rw [dataFrame_eq _ _ i hwrite hrange hframes]
    rfl
  case abort =>
    subst hp
    simp only [State.dataSent, hcarried, hturn, Bool.false_eq_true, if_false, Option.isSome_some, if_true]
    rw [State.enterAbortPhase_eq _ _ q rfl]

/-! ### The bytes of a frame -/

theorem kindOfCode_kindCode (kind : FrameKind) : kindOfCode (kindCode kind) = some kind := by
  cases kind <;> rfl

theorem headerFields (g : BitVec 3) (q : Seq) (u v : Bool) :
    (g ++ q ++ BitVec.ofBool u ++ BitVec.ofBool v).extractLsb' 5 3 = g ∧
    (g ++ q ++ BitVec.ofBool u ++ BitVec.ofBool v).extractLsb' 2 3 = q ∧
    (g ++ q ++ BitVec.ofBool u ++ BitVec.ofBool v).getLsbD 1 = u ∧
    (g ++ q ++ BitVec.ofBool u ++ BitVec.ofBool v).getLsbD 0 = v := by
  revert g q u v
  decide

theorem kindByteFields (k address : BitVec 4) :
    (k ++ address).extractLsb' 4 4 = k ∧ (k ++ address).extractLsb' 0 4 = address := by
  revert k address
  decide

theorem checkBytes_length (bytes : List Byte) : (checkBytes bytes).length = 2 := rfl

/-- Settles O59. -/
theorem frameBytesReadBack : Obligations.FrameBytesReadBack := by
  intro f hlen
  obtain ⟨kind, address, tag, seq, turn, last, payload⟩ := f
  have hlen' : payload.length ≤ 64 := hlen
  have hcount : (BitVec.ofNat 8 payload.length).toNat = payload.length := by
    simp only [BitVec.toNat_ofNat]
    omega
  obtain ⟨hkind, haddress⟩ := kindByteFields (kindCode kind) address
  obtain ⟨htag, hseq, hturn, hlast⟩ := headerFields (BitVec.ofNat 3 tag.val) seq turn last
  have htagBack : Fin.ofNat 8 (BitVec.ofNat 3 tag.val).toNat = tag := by
    refine Fin.ext ?_
    simp only [BitVec.toNat_ofNat, Fin.val_ofNat]
    omega
  simp only [frameBytes, frameContent, List.cons_append, judgeBytes, hcount, if_neg (Nat.not_lt.mpr hlen'),
    List.length_append, checkBytes_length, if_true, List.drop_left', List.take_left', hkind, kindOfCode_kindCode,
    haddress, htag, htagBack, hseq, hturn, hlast]

end Sys2Proof.Machine
end

section
/-!
PROOF. The state right after hardware reset has every invariant.
-/
set_option Elab.async false

namespace Sys2Proof.Machine

theorem reset_slot (n : SlotNo) : State.reset.slots[n] = none := Vector.getElem_replicate n.isLt

theorem reset_station (a : StationNo) : State.reset.stations[a] = Station.atReset := Vector.getElem_replicate a.isLt

theorem reset_slotState (n : SlotNo) : State.reset.slotState n = none := by rw [State.slotState, reset_slot]; rfl

theorem reset_listsFit : State.reset.listsFit := by
  refine State.listsFit_iff.mpr fun L => ?_
  have hnil : State.reset.shelf L = [] := by cases L <;> rfl
  rw [hnil]
  exact ⟨List.nodup_nil, fun n => ⟨nofun, fun h => absurd h (State.not_belongs_of_free (reset_slot n))⟩⟩

theorem reset_consistent : State.reset.consistent := by
  refine ⟨reset_listsFit, fun n => ⟨?_, ?_⟩, fun n a t => ?_, fun w h => (nomatch h), rfl⟩
  · simp only [State.isConnected, reset_slotState]
    rfl
  · simp only [State.isAbortOnLink, reset_slotState]
    rfl
  · have htag : Station.atReset.tagMap[t] = none := Vector.getElem_replicate t.isLt
    rw [reset_station, htag, reset_slot]
    simp

theorem reset_pagesConserved : State.reset.pagesConserved := by
  have hchain (n : SlotNo) : State.reset.chainOf n = [] := by simp only [State.chainOf, reset_slot]
  have hpages : State.reset.allPages = List.finRange 256 := by
    have hflat : (List.finRange 32).flatMap State.reset.chainOf = [] := List.flatMap_eq_nil_iff.mpr fun n _ => hchain n
    rw [State.allPages, hflat]
    simp only [State.reset, freeListAtReset, List.append_nil]
  rw [State.pagesConserved, hpages]

theorem reset_mem : State.reset.stage.mem = [] := rfl

theorem reset_memWf : Memory.wf State.reset.stage.mem := by
  rw [reset_mem]
  exact ⟨List.Pairwise.nil, nofun⟩

theorem reset_eventsFit : State.reset.eventsFit := by
  refine ⟨List.nodup_nil, fun n => ?_, fun a h => ?_⟩
  · simp only [State.unread, reset_slot]
    rfl
  · rw [reset_station] at h
    cases h

theorem reset_slotsInRange : State.reset.slotsInRange := by
  refine ⟨fun n x hx => ?_, rfl⟩
  rw [reset_slot] at hx
  cases hx

theorem reset_registersInRange : State.reset.registersInRange := by
  have hstation (a : StationNo) : State.reset.stations[a].inRange := by
    rw [reset_station]
    decide
  exact ⟨by decide, by decide, rfl, rfl, by decide, by decide, by decide, hstation, fun _ h => absurd h List.not_mem_nil⟩

theorem reset_reservationsFit : State.reset.reservationsFit := ⟨Nat.zero_le 4, fun h => (h rfl).elim⟩

theorem reset_deadlinesFit : State.reset.deadlinesFit := ⟨List.Pairwise.nil, nofun⟩

/-- Settles O60. -/
theorem invariantsHoldAtReset : Obligations.InvariantsHoldAtReset :=
  ⟨reset_registersInRange, reset_memWf, reset_slotsInRange, reset_pagesConserved, reset_reservationsFit, reset_eventsFit,
    reset_consistent, reset_deadlinesFit⟩

end Sys2Proof.Machine
end

section
/-!
PROOF. What a step can do to the data of the part, said once. `Move` lists the single changes that the operations of the
model are made of; each carries what the invariants need to know of it. The invariants of registers, slot records, pages,
events, deadlines and frozen data are then each proved move by move.
-/
set_option Elab.async false

namespace Sys2Proof.Machine

variable {s t u : State} {n : SlotNo} {x y : Exchange} {c : Connection} {a : StationNo}

/-! ### Conditions of the moves -/

/-- A change of the Host Port that keeps its registers in range. -/
structure HostPort.KeepsRange (h h' : HostPort) : Prop where
  replyTime : 8 ≤ h.replyTime.toNat → 8 ≤ h'.replyTime.toNat
  pollInterval : 1 ≤ h.pollInterval.toNat → 1 ≤ h'.pollInterval.toNat
  stageOffset : h.stageOffset.toNat % 2 = 0 → h'.stageOffset.toNat % 2 = 0
  hostFault : faultCountInRange h.hostFault = true → faultCountInRange h'.hostFault = true

/-- The counters of the Link Arbiter in range. -/
abbrev Arbiter.inRange (g : Arbiter) : Prop := g.fairness ≤ 4 ∧ 1 ≤ g.pollTimer ∧ g.pollTimer ≤ 255

/-- A slot record changes with its pages and its parameter bytes kept, and neither ends nor goes back to PREPARED. -/
structure Exchange.Becomes (x y : Exchange) : Prop where
  chain : y.chain = x.chain
  params : y.params = x.params
  notDone : x.st.isDone = false
  notDone' : y.st.isDone = false
  issued : y.st = .prepared → x.st = .prepared

/-- Every slot of the deadline list is PARKED(STATION). -/
def State.deadlinesHeld (s : State) : Prop := ∀ n ∈ s.park.deadlines, s.isStationParked n = true

/-- One change of the data of the part. -/
inductive Move (s : State) : State → Prop where
  | host (h : HostPort) (hh : s.host.KeepsRange h) : Move s { s with host := h }
  | counts (k : Nat) (q : List Instr) : Move s { s with freeCount := k, pending := q }
  | snapshot (v : Option (Vector Word 4)) : Move s { s with events := { s.events with snapshot := v } }
  | link (l : LinkEngine) (hl : s.slotsInRange → ({ s with link := l } : State).connectionFits = true) :
      Move s { s with link := l }
  | arb (g : Arbiter) (hg : s.registersInRange → g.inRange) : Move s { s with arb := g }
  | unarm (l : List SlotNo) (hl : l.Sublist s.park.deadlines) :
      Move s { s with park := { s.park with deadlines := l } }
  | park (n : SlotNo) (x y : Exchange) (g : Tag) (d : BitVec 32) (own : Nat) (hx : s.slots[n] = some x)
      (hxy : x.Becomes y) (hoff : ∀ g d, x.st ≠ .parkedStation g d) (hy : y.st = .parkedStation g d)
      (hown : (d - s.park.timebase).toNat = own) (hhigh : own ≤ 65535)
      (hlow : (∀ a : StationNo, s.stations[a].inRange) → 1 ≤ own)
      (hr : s.slotsInRange → ({ s with slots := s.slots.set n (some y) } : State).slotsInRange) :
      Move s ((s.setSlot n (some y)).arm n own)
  | stations (v : Vector Station 15) (hr : ∀ a : StationNo, s.stations[a].inRange → v[a].inRange)
      (ha : ∀ a : StationNo, v[a].attention = true → s.stations[a].attention = true ∨ s.hasRecord (.station a) = true) :
      Move s { s with stations := v }
  | report (src : Source) (k : EventKind) (d : Detail) (hsrc : ∀ n, src ≠ .slot n) : Move s (s.report src k d)
  | pages (g : StageMem) (hm : g.mem = s.stage.mem)
      (hp : (g.free ++ g.reserved).Perm (s.stage.free ++ s.stage.reserved)) : Move s { s with stage := g }
  | record (n : SlotNo) (x y : Exchange) (op : LinkOp) (hx : s.slots[n] = some x) (hxy : x.Becomes y)
      (hd : s.deadlinesHeld → n ∉ s.park.deadlines)
      (hr : s.slotsInRange → ({ s with
        slots := s.slots.set n (some y), link := { s.link with op := op } } : State).slotsInRange) :
      Move s { s with slots := s.slots.set n (some y), link := { s.link with op := op } }
  | store (n : SlotNo) (x y : Exchange) (m : Memory) (hx : s.slots[n] = some x) (hst : x.st = .prepared)
      (hy : y.st = .prepared) (hchain : y.chain = x.chain)
      (hr : s.slotsInRange → ({ s with slots := s.slots.set n (some y) } : State).slotsInRange)
      (hm : Memory.wf s.stage.mem → Memory.wf m)
      (hb : ∀ p ∉ x.chain, ∀ o < 64, Memory.readByte m (pageAddress p o) = Memory.readByte s.stage.mem (pageAddress p o)) :
      Move s { s with slots := s.slots.set n (some y), stage := { s.stage with mem := m } }
  | fill (n : SlotNo) (x y : Exchange) (p : Page) (rest : List Page) (bytes : List Byte) (op : LinkOp)
      (hx : s.slots[n] = some x) (hst : x.isConnectedRead = true) (hy : y.isConnectedRead = true)
      (hchain : y.chain = x.chain ++ [p]) (hparams : y.params = x.params) (hp : s.stage.reserved = p :: rest)
      (hr : s.slotsInRange → ({ s with
        slots := s.slots.set n (some y), link := { s.link with op := op } } : State).slotsInRange) :
      Move s { s with
        slots := s.slots.set n (some y)
        link := { s.link with op := op }
        stage := { s.stage with reserved := rest, mem := Memory.fillPage s.stage.mem p bytes } }
  | done (n : SlotNo) (x y : Exchange) (r : EventRecord) (hx : s.slots[n] = some x) (hnot : x.st.isDone = false)
      (hy : y.st.isUnread = true) (hchain : y.chain = x.chain) (hparams : y.params = x.params)
      (hsrc : r.source = .slot n) (hrep : r.repeats = 0) (hd : s.deadlinesHeld → n ∉ s.park.deadlines)
      (hr : s.slotsInRange → ({ s with slots := s.slots.set n (some y) } : State).slotsInRange) :
      Move s { s with
        slots := s.slots.set n (some y), events := { s.events with records := s.events.records ++ [r] } }
  | pop (r : EventRecord) (rest : List EventRecord) (h : s.events.records = r :: rest) : Move s s.eventPop
  | release (n : SlotNo) (x : Exchange) (hx : s.slots[n] = some x)
      (hst : x.st = .prepared ∨ (x.st.isDone = true ∧ x.st.isUnread = false)) :
      Move s { s with slots := s.slots.set n none, stage := s.stage.returnChain x.chain }

/-- A run of moves. -/
abbrev Moves : State → State → Prop := Relation.ReflTransGen Move

theorem Move.moves (h : Move s t) : Moves s t := Relation.ReflTransGen.single h

theorem Moves.refl (s : State) : Moves s s := Relation.ReflTransGen.refl

/-! ### Slot records in range -/

/-- The states in which a READ may stand off a page boundary (R61). -/
def SlotState.mayBeOff : SlotState → Bool
  | .connected _ _ _ => true
  | .aborting _ _ _ => true
  | .done _ _ _ _ => true
  | _ => false

theorem Exchange.inRange_iff : x.inRange = true ↔
    countInRange x.op x.count = true ∧ x.doneCount ≤ x.count ∧ x.areasFit = true ∧ x.st.resultLength ≤ 8 ∧
      (if x.st.isDone then x.busyCount ≤ 8 else x.busyCount < 8) ∧
      (x.op = .read → x.st.mayBeOff = false → x.atBoundary = true) := by
  unfold Exchange.inRange
  simp only [Bool.and_eq_true, decide_eq_true_eq, and_assoc]
  refine and_congr_right fun _ => and_congr_right fun _ => and_congr_right fun _ => and_congr_right fun _ =>
    and_congr (by split <;> simp) ?_
  cases hop : x.op <;> cases hst : x.st <;> simp [SlotState.mayBeOff]

/-- A record that changes its state alone stays in range, unless a READ comes to stand off a boundary (R1, R4). -/
theorem Exchange.inRange_restate {st : SlotState} (h : x.inRange = true) (hx : x.st.isDone = false)
    (hst : st.isDone = false) (hb : x.op = .read → st.mayBeOff = false → x.atBoundary = true) :
    ({ x with st := st } : Exchange).inRange = true := by
  obtain ⟨hcount, hdone, hareas, -, hbusy, -⟩ := Exchange.inRange_iff.mp h
  rw [hx] at hbusy
  refine Exchange.inRange_iff.mpr ⟨hcount, hdone, hareas, ?_, ?_, hb⟩
  · cases st <;> simp_all [SlotState.resultLength, SlotState.isDone]
  · simpa [hst] using hbusy

theorem State.connectionFits_iff : s.connectionFits = true ↔
    ∀ c x, s.link.op = .exchange c → s.slots[c.slot] = some x → x.op = .read →
      (c.dataEnded = false ∨ c.phase = .opening) → x.atBoundary = true := by
  unfold State.connectionFits
  constructor
  · intro h c x hop hx hread hc
    simp only [hop, hx, hread, Bool.not_eq_true, true_and, hc, if_true] at h
    exact h
  · intro h
    split
    · next c hop =>
      split
      · next x hx =>
        split
        · next hc => exact h c x hop hx hc.1 (by simpa using hc.2)
        · rfl
      · rfl
    · rfl

theorem State.slotsInRange_slot (h : s.slotsInRange) (hx : s.slots[n] = some x) : x.inRange = true := h.1 n x hx

theorem slots_set_some {v : Vector (Option Exchange) 32} {m : SlotNo} {o : Option Exchange} {z : Exchange}
    (h : (v.set n o)[m] = some z) : (m = n ∧ o = some z) ∨ (m ≠ n ∧ v[m] = some z) := by
  by_cases hm : m = n
  · subst hm
    exact .inl ⟨rfl, (Vector.getElem_set_self m.isLt).symm.trans h⟩
  · exact .inr ⟨hm, (Vector.getElem_set_ne n.isLt m.isLt fun e => hm (Fin.ext e.symm)).symm.trans h⟩

/-- A slot whose record changes in range, with its counts kept, leaves every record in range. -/
theorem State.slotsInRange_set (hx : s.slots[n] = some x) (hy : x.inRange = true → y.inRange = true)
    (hop : y.op = x.op) (hcount : y.count = x.count) (hdone : y.doneCount = x.doneCount) (h : s.slotsInRange) :
    ({ s with slots := s.slots.set n (some y) } : State).slotsInRange := by
  refine ⟨fun m z hz => ?_, State.connectionFits_iff.mpr fun c z hc hz hread hb => ?_⟩
  · rcases slots_set_some hz with ⟨-, e⟩ | ⟨-, e⟩
    · exact Option.some.inj e ▸ hy (h.1 n x hx)
    · exact h.1 m z e
  · rcases slots_set_some hz with ⟨e, ez⟩ | ⟨-, ez⟩
    · obtain rfl := Option.some.inj ez
      have hold := State.connectionFits_iff.mp h.2 c x hc (e ▸ hx) (hop ▸ hread) hb
      simpa only [Exchange.atBoundary, hcount, hdone] using hold
    · exact State.connectionFits_iff.mp h.2 c z hc ez hread hb

theorem State.not_mem_deadlines (hx : s.slots[n] = some x) (hst : ∀ t d, x.st ≠ .parkedStation t d)
    (h : s.deadlinesHeld) : n ∉ s.park.deadlines := by
  intro hn
  have hp := h n hn
  simp only [State.isStationParked, State.slotState, hx, Option.map_some] at hp
  split at hp
  · next t d e => exact hst t d (Option.some.inj e)
  · cases hp

/-! ### The shared operations as moves -/

theorem HostPort.keepsRange_of_eq {h h' : HostPort} (hreply : h'.replyTime = h.replyTime)
    (hpoll : h'.pollInterval = h.pollInterval) (hoffset : h'.stageOffset = h.stageOffset)
    (hfault : h'.hostFault = h.hostFault) : h.KeepsRange h' :=
  ⟨fun k => hreply ▸ k, fun k => hpoll ▸ k, fun k => hoffset ▸ k, fun k => hfault ▸ k⟩

/-- A change of the Host Port apart from the registers that have a range. -/
theorem Moves.withHost (f : HostPort → HostPort) (hreply : (f s.host).replyTime = s.host.replyTime)
    (hpoll : (f s.host).pollInterval = s.host.pollInterval) (hoffset : (f s.host).stageOffset = s.host.stageOffset)
    (hfault : (f s.host).hostFault = s.host.hostFault) : Moves s (s.withHost f) :=
  (Move.host (f s.host) (HostPort.keepsRange_of_eq hreply hpoll hoffset hfault)).moves

theorem Moves.result (c : ResultCode) (v : Nat) : Moves s (s.result c v) := Moves.withHost _ rfl rfl rfl rfl

theorem Moves.misuse (c : StageFault) : Moves s (s.misuse c) := by
  rw [State.misuse_eq]
  refine (Move.host { s.host with hostFault := misused s.host.hostFault c } ⟨id, id, id, fun h => ?_⟩).moves
  cases hf : s.host.hostFault with
  | none => rfl
  | some p =>
    obtain ⟨first, k⟩ := p
    rw [hf] at h
    simp only [faultCountInRange, misused, decide_eq_true_eq] at h ⊢
    split <;> omega

theorem Moves.report {src : Source} {k : EventKind} {d : Detail} (h : ∀ n, src ≠ .slot n) : Moves s (s.report src k d) :=
  (Move.report src k d h).moves

theorem Moves.linkFault (c : LinkFault) : Moves s (s.linkFault c) := Moves.report (by simp)

theorem stations_set_cases {P : StationNo → Station → Prop} {v : Vector Station 15} {st : Station} (h : P a st)
    (b : StationNo) (hb : b ≠ a → P b v[b]) : P b (v.set a st)[b] := by
  by_cases hba : b = a
  · subst hba
    have hget : (v.set b st)[b] = st := Vector.getElem_set_self b.isLt
    rw [hget]
    exact h
  · have hget : (v.set a st)[b] = v[b] := Vector.getElem_set_ne a.isLt b.isLt fun e => hba (Fin.ext e.symm)
    rw [hget]
    exact hb hba

/-- One station record changes. -/
theorem Move.station (a : StationNo) (st : Station) (hr : s.stations[a].inRange → st.inRange)
    (ha : st.attention = true → s.stations[a].attention = true ∨ s.hasRecord (.station a) = true) :
    Move s { s with stations := s.stations.set a st } :=
  Move.stations _
    (fun b => stations_set_cases (P := fun b st => s.stations[b].inRange → st.inRange) hr b fun _ => id)
    fun b => stations_set_cases
      (P := fun b st => st.attention = true → s.stations[b].attention = true ∨ s.hasRecord (.station b) = true)
      ha b fun _ => .inl

/-- A station record that keeps its attention mark. -/
theorem Moves.station {st : Station} (hr : s.stations[a].inRange → st.inRange)
    (ha : st.attention = true → s.stations[a].attention = true) : Moves s { s with stations := s.stations.set a st } :=
  (Move.station a st hr fun h => .inl (ha h)).moves

theorem Moves.withStation {f : Station → Station} (hr : s.stations[a].inRange → (f s.stations[a]).inRange)
    (ha : (f s.stations[a]).attention = s.stations[a].attention) : Moves s (s.withStation a f) :=
  Moves.station hr fun h => ha ▸ h

theorem Moves.setTag (g : Tag) (e : Option SlotNo) : Moves s (s.setTag a g e) :=
  Moves.withStation (fun h => h) rfl

theorem Moves.freeTagOf (x : Exchange) : Moves s (s.freeTagOf x) := by
  unfold State.freeTagOf
  split
  · exact Moves.setTag _ _
  · exact Moves.refl s

theorem Moves.stationSeen (a : StationNo) : Moves s (s.stationSeen a) := by
  have hseen (q : StationState) : Moves s (s.withStation a fun st => { st with missCount := 0, state := q }) :=
    Moves.withStation (fun h => ⟨Nat.zero_le 3, h.2⟩) rfl
  unfold State.stationSeen
  split
  · exact hseen _
  · exact (hseen _).trans (Moves.report (by simp))
  · exact Moves.withStation (fun h => ⟨Nat.zero_le 3, h.2⟩) rfl

theorem Moves.miss (a : StationNo) : Moves s (s.miss a) := by
  have hcounted : Moves s (s.withStation a fun st =>
      { st with missCount := if st.missCount < Config.missLimit then st.missCount + 1 else st.missCount }) := by
    refine Moves.withStation (fun h => ⟨?_, h.2⟩) rfl
    have hlimit : Config.missLimit = 3 := rfl
    have hcount := h.1
    dsimp only
    split <;> omega
  unfold State.miss
  dsimp only
  split
  · split
    · exact hcounted.trans ((Moves.withStation (fun h => h) rfl).trans (Moves.report (by simp)))
    · exact hcounted.trans ((Moves.withStation (fun h => h) rfl).trans (Moves.report (by simp)))
    · exact hcounted
  · exact hcounted

theorem State.hasRecord_report (src : Source) (k : EventKind) (d : Detail) : (s.report src k d).hasRecord src = true := by
  refine (State.hasRecord_iff _ src).mpr ?_
  by_cases h : s.hasRecord src = true
  · obtain ⟨r, hr, hsrc⟩ := (s.hasRecord_iff src).mp h
    rw [s.report_of_waiting src k d h]
    exact ⟨r.fold k d, List.mem_map.mpr ⟨r, hr, if_pos hsrc⟩, hsrc⟩
  · rw [s.report_of_new src k d (by simpa using h)]
    exact ⟨_, List.mem_append_right _ List.mem_cons_self, rfl⟩

theorem Moves.attention (a : StationNo) (b : Byte) : Moves s (s.attention a b) := by
  have hreport : Moves s (s.report (.station a) .attention (.code b)) := Moves.report (by simp)
  refine hreport.trans (Move.station (s := s.report (.station a) .attention (.code b)) a
    { (s.report (.station a) .attention (.code b)).stations[a] with attention := true } (fun h => h)
    fun _ => .inr (State.hasRecord_report _ _ _)).moves

theorem Moves.giveUpReserved : Moves s s.giveUpReserved :=
  (Move.pages s.stage.giveUp rfl s.stage.giveUp_pages).moves

theorem Moves.reserveTo (k : Nat) : Moves s (s.withStage (·.reserveTo k)) :=
  (Move.pages _ (StageMem.reserveTo_mem _ _) (StageMem.reserveTo_pages _ k)).moves

theorem Moves.withArb (f : Arbiter → Arbiter) (hf : (f s.arb).fairness = s.arb.fairness)
    (hp : (f s.arb).pollTimer = s.arb.pollTimer) : Moves s (s.withArb f) := by
  refine (Move.arb (f s.arb) fun h => ?_).moves
  rw [Arbiter.inRange, hf, hp]
  exact ⟨h.2.2.2.2.1, h.2.2.2.2.2.1, h.2.2.2.2.2.2.1⟩

theorem Moves.leaveLists (n : SlotNo) : Moves s (s.leaveLists n) :=
  (Moves.withArb (·.without n) rfl rfl).trans (Move.unarm _ List.filter_sublist).moves

theorem Moves.joinIssue (n : SlotNo) (urgent : Bool) : Moves s (s.joinIssue n urgent) :=
  Moves.withArb _ (by cases urgent <;> rfl) (by cases urgent <;> rfl)

theorem Moves.joinAbort (n : SlotNo) : Moves s (s.joinAbort n) := Moves.withArb _ rfl rfl

theorem Moves.joinPool (n : SlotNo) : Moves s (s.joinPool n) := Moves.withArb _ rfl rfl

theorem Moves.joinRecall (n : SlotNo) : Moves s (s.joinRecall n) := Moves.withArb _ rfl rfl

/-! ### The link -/

/-- The link changes, and no other exchange comes on it. -/
theorem Moves.withLink (f : LinkEngine → LinkEngine)
    (h : ∀ c, (f s.link).op = .exchange c → s.link.op = .exchange c) : Moves s (s.withLink f) := by
  refine (Move.link (f s.link) fun hr => State.connectionFits_iff.mpr fun c x hop hx hread hb => ?_).moves
  exact State.connectionFits_iff.mp hr.2 c x (h c hop) hx hread hb

theorem Moves.send (f : Frame) : Moves s (s.send f) := Moves.withLink _ fun _ h => h

theorem Moves.passTurn (a : StationNo) : Moves s (s.passTurn a) := Moves.withLink _ fun _ h => h

theorem Moves.openLate : Moves s s.openLate := Moves.withLink _ fun _ h => h

theorem Moves.endOp : Moves s s.endOp := Moves.withLink _ (by simp)

theorem Moves.setOp {op : LinkOp} (h : ∀ c, op ≠ .exchange c) : Moves s (s.setOp op) := Moves.withLink _ fun c hc => absurd hc (h c)

theorem Moves.badFrame (c : LinkFault) : Moves s (s.badFrame c) :=
  (Moves.withLink (fun l => { l with lateOpen := false }) fun _ h => h).trans (Moves.linkFault c)

theorem LinkOp.unbind_exchange {op : LinkOp} (h : op.unbind n = .exchange c) : op = .exchange c := by
  cases op with
  | poll w => cases h
  | _ => exact h

theorem Moves.unbind (n : SlotNo) : Moves s (s.withLink fun l => { l with op := l.op.unbind n }) :=
  Moves.withLink _ fun _ h => LinkOp.unbind_exchange h

/-! ### Slot records -/

/-- A slot changes its state and stays issued. -/
theorem Moves.restate {st : SlotState} (hx : s.slots[n] = some x) (hd : s.deadlinesHeld → n ∉ s.park.deadlines)
    (hnot : x.st.isDone = false) (hst : st.isDone = false) (hissued : st = .prepared → x.st = .prepared)
    (hb : s.slotsInRange → x.op = .read → st.mayBeOff = false → x.atBoundary = true) :
    Moves s (s.setSlot n (some { x with st := st })) := by
  refine (Move.record n x { x with st := st } s.link.op hx ⟨rfl, rfl, hnot, hst, hissued⟩ hd fun h => ?_).moves
  exact State.slotsInRange_set hx (fun hr => Exchange.inRange_restate hr hnot hst (hb h)) rfl rfl rfl h

theorem State.leaveLists_deadlines : n ∉ (s.leaveLists n).park.deadlines := by
  simp [State.leaveLists, State.withArb, State.withPark]

/-- A slot in range stands at a boundary where it cannot stand off one. -/
theorem State.atBoundary_of (h : s.slotsInRange) (hx : s.slots[n] = some x) (hread : x.op = .read)
    (hoff : x.st.mayBeOff = false) : x.atBoundary = true := by
  obtain ⟨-, -, -, -, -, hb⟩ := Exchange.inRange_iff.mp (h.1 n x hx)
  exact hb hread hoff

theorem Moves.condemn {g : Tag} {f : Fatal} (hx : s.slots[n] = some x) (hnot : x.st.isDone = false) :
    Moves s (s.condemn n x g f) := by
  have hstate : Moves (s.leaveLists n) ((s.leaveLists n).setSlot n (some { x with st := .aborting g f none })) :=
    Moves.restate hx (fun _ => State.leaveLists_deadlines) hnot rfl nofun (by simp [SlotState.mayBeOff])
  exact (Moves.leaveLists n).trans (hstate.trans (Moves.joinAbort n))

theorem Moves.recalled {g : Tag} {r : ParkReason} (hx : s.slots[n] = some x) (hnot : x.st.isDone = false)
    (hoff : x.st.mayBeOff = false) : Moves s (s.recalled n x g r) := by
  have hstate : Moves (s.leaveLists n) ((s.leaveLists n).setSlot n (some { x with st := .recalled g r })) :=
    Moves.restate hx (fun _ => State.leaveLists_deadlines) hnot rfl nofun
      fun h hread _ => State.atBoundary_of h hx hread hoff
  exact (Moves.leaveLists n).trans (hstate.trans (Moves.joinRecall n))

/-- An entry into DONE up to its last change: the tag, the reservations and the lists are left, and cleanup entries are
unbound (R25, R108). -/
def State.beforeDone (s : State) (n : SlotNo) (x : Exchange) : State :=
  ((if x.isConnectedRead then (s.freeTagOf x).giveUpReserved else s.freeTagOf x).leaveLists n).withLink
    fun l => { l with op := l.op.unbind n }

theorem State.beforeDone_slots : (s.beforeDone n x).slots = s.slots := by
  unfold State.beforeDone State.freeTagOf
  cases x.st.tag? <;> cases x.isConnectedRead <;> rfl

theorem State.beforeDone_deadlines : n ∉ (s.beforeDone n x).park.deadlines := State.leaveLists_deadlines

theorem State.afterDone_eq_beforeDone {f : FinalStatus} {st : Option Byte} {res : List Byte} :
    s.afterDone n x f st res = { s.beforeDone n x with
      slots := (s.beforeDone n x).slots.set n (some { x with st := .done f st true res })
      events := { (s.beforeDone n x).events with
        records := (s.beforeDone n x).events.records ++ [completionRecord s n x f st] } } := by
  unfold State.afterDone State.beforeDone State.freeTagOf State.setTag
  cases x.st.tag? <;> cases x.isConnectedRead <;>
    simp [State.leaveLists, State.withArb, State.withPark, State.withLink, State.giveUpReserved, State.withStage,
      State.withStation, Arbiter.without, LinkOp.unbind, StageMem.giveUp, completionRecord, State.stamp] <;>
    cases s.link.op <;> rfl

theorem Moves.beforeDone : Moves s (s.beforeDone n x) := by
  have hgiven : Moves s (if x.isConnectedRead then (s.freeTagOf x).giveUpReserved else s.freeTagOf x) := by
    split
    · exact (Moves.freeTagOf x).trans Moves.giveUpReserved
    · exact Moves.freeTagOf x
  exact hgiven.trans ((Moves.leaveLists n).trans (Moves.unbind n))

/-- A slot enters DONE (R25), its record with the counts it has. -/
theorem Moves.afterDone {f : FinalStatus} {st : Option Byte} {res : List Byte} (hx : s.slots[n] = some x)
    (hnot : x.st.isDone = false) (hchain : y.chain = x.chain) (hparams : y.params = x.params) (hop : y.op = x.op)
    (hcount : y.count = x.count) (hdone : y.doneCount = x.doneCount) (hbusy : x.busyCount < 8 → y.busyCount ≤ 8)
    (hres : res.length ≤ 8) : Moves s (s.afterDone n y f st res) := by
  have hx' : (s.beforeDone n y).slots[n] = some x := by rw [State.beforeDone_slots]; exact hx
  refine (Moves.beforeDone (s := s) (n := n) (x := y)).trans ?_
  rw [State.afterDone_eq_beforeDone]
  refine (Move.done n x { y with st := .done f st true res } _ hx' hnot rfl hchain hparams rfl
    rfl (fun _ => State.beforeDone_deadlines) ?_).moves
  refine State.slotsInRange_set hx' (fun hr => ?_) hop hcount hdone
  obtain ⟨hcountIn, hle, hareas, -, hold, -⟩ := Exchange.inRange_iff.mp hr
  refine Exchange.inRange_iff.mpr ⟨?_, ?_, ?_, hres, ?_, fun _ h => nomatch h⟩
  · exact hop ▸ hcount ▸ hcountIn
  · exact hcount ▸ hdone ▸ hle
  · simpa only [Exchange.areasFit, hop, hcount, hdone, hchain, hparams] using hareas
  · rw [hnot] at hold
    simp only [Bool.false_eq_true, if_false] at hold
    simpa [SlotState.isDone] using hbusy hold

theorem Moves.enterDone {f : FinalStatus} {st : Option Byte} {res : List Byte} (hx : s.slots[n] = some x)
    (hnot : x.st.isDone = false) (hr : res = [] ∨ x.op = .control) (hres : res.length ≤ 8) :
    Moves s (s.enterDone n f st res) := by
  rw [State.enterDone_eq s n x f st res hx hr]
  exact Moves.afterDone hx hnot rfl rfl rfl rfl rfl Nat.le_of_lt hres

end Sys2Proof.Machine
end

section
/-!
PROOF. The operations of the Link Arbiter and of the Link Engine are runs of moves.
-/
set_option Elab.async false

namespace Sys2Proof.Machine

variable {s t u : State} {n : SlotNo} {x y : Exchange} {c : Connection} {a : StationNo} {k k' : Carried} {w : PollWindow}

/-! ### Grants -/

/-- A slot that stands at a boundary connects with a new connection record (R44). -/
theorem Moves.connect {g : Tag} {resumed : Bool} (hx : s.slots[n] = some x) (hnot : x.st.isDone = false)
    (hoff : x.st.mayBeOff = false) : Moves s (s.connect n x g resumed) := by
  have hstate : Moves (s.leaveLists n) (((s.leaveLists n).setSlot n (some { x with st := .connected g 0 none })).setOp
      (.exchange (newConnection s n x resumed))) := by
    refine (Move.record (s := s.leaveLists n) n x { x with st := .connected g 0 none } (.exchange (newConnection s n x resumed)) hx
      ⟨rfl, rfl, hnot, rfl, nofun⟩ (fun _ => State.leaveLists_deadlines) fun h => ?_).moves
    have hset := State.slotsInRange_set (s := s.leaveLists n) (y := { x with st := .connected g 0 none }) hx
      (fun hr => Exchange.inRange_restate hr hnot rfl (by simp [SlotState.mayBeOff])) rfl rfl rfl h
    refine ⟨hset.1, State.connectionFits_iff.mpr fun c z hc hz hread _ => ?_⟩
    obtain rfl := LinkOp.exchange.inj hc
    have hget : ((s.leaveLists n).slots.set n (some { x with st := .connected g 0 none }))[n] =
        some { x with st := .connected g 0 none } := Vector.getElem_set_self n.isLt
    obtain rfl := Option.some.inj (hget.symm.trans hz)
    exact State.atBoundary_of (s := s.leaveLists n) (x := x) h hx hread hoff
  exact (Moves.leaveLists n).trans (hstate.trans (Moves.send _))

theorem Moves.choose : Moves s s.choose := by
  refine State.choose_induct (P := fun u => Moves s u) (Moves.refl s) fun u _ h => ?_
  cases h with
  | poll => exact (Moves.setOp (by simp)).trans (Moves.send _)
  | @visit n x g f r hx hst =>
    have hstate : Moves (s.leaveLists n) ((s.leaveLists n).setSlot n (some { x with st := .aborting g f (some 0) })) :=
      Moves.restate hx (fun _ => State.leaveLists_deadlines) (by rw [hst]; rfl) rfl nofun (by simp [SlotState.mayBeOff])
    exact (Moves.leaveLists n).trans (hstate.trans ((Moves.setOp (by simp)).trans (Moves.send _)))
  | @resume n x g hx hst =>
    rcases hst with ⟨r, hst⟩ | hst
    · exact Moves.connect hx (by rw [hst]; rfl) (by rw [hst]; rfl)
    · exact Moves.connect hx (by rw [hst]; rfl) (by rw [hst]; rfl)
  | @call n x g q hx hst _ hq =>
    have hfair : Moves s (s.withArb fun b => { b with fairness := q }) :=
      (Move.arb { s.arb with fairness := q } fun h => ⟨hq, h.2.2.2.2.2.1, h.2.2.2.2.2.2.1⟩).moves
    exact hfair.trans ((Moves.setTag g (some n)).trans (Moves.connect hx (by rw [hst]; rfl) (by rw [hst]; rfl)))

/-! ### The connected slot -/

/-- The record of the slot that a connection carries. -/
def Carried.record (k : Carried) : Exchange := { k.x with st := .connected k.tag k.retry k.waiting }

/-- The carried slot in range, with its connection (R4, R44, R61). -/
def Carried.inRange (k : Carried) : Prop :=
  k.record.inRange = true ∧
    (k.x.op = .read → (k.c.dataEnded = false ∨ k.c.phase = .opening) → k.x.atBoundary = true)

/-- A connection goes on as `k'`: with the same slot, pages and parameter bytes, and still in range. -/
structure Carried.Leads (k k' : Carried) : Prop where
  slot : k'.c.slot = k.c.slot
  chain : k'.x.chain = k.x.chain
  params : k'.x.params = k.x.params
  range : k.inRange → k'.inRange

/-- The connection on the link goes on as `k`. -/
def State.Conducts (s : State) (k : Carried) : Prop := ∃ k0, s.carried = some k0 ∧ k0.Leads k

theorem Carried.Leads.refl (k : Carried) : k.Leads k := ⟨rfl, rfl, rfl, id⟩

theorem Carried.Leads.trans {k1 k2 k3 : Carried} (h1 : k1.Leads k2) (h2 : k2.Leads k3) : k1.Leads k3 :=
  ⟨h2.slot.trans h1.slot, h2.chain.trans h1.chain, h2.params.trans h1.params, h2.range ∘ h1.range⟩

theorem State.conducts_of_carried (h : s.carried = some k) : s.Conducts k := ⟨k, h, Carried.Leads.refl k⟩

theorem State.Conducts.leads (h : s.Conducts k) (hk : k.Leads k') : s.Conducts k' := by
  obtain ⟨k0, h0, hlead⟩ := h
  exact ⟨k0, h0, hlead.trans hk⟩

/-- What does not touch the slots and the operation leaves the connection as it was. -/
theorem State.Conducts.of_same (h : s.Conducts k) (hslots : t.slots = s.slots) (hop : t.link.op = s.link.op) :
    t.Conducts k := by
  obtain ⟨k0, h0, hlead⟩ := h
  refine ⟨k0, ?_, hlead⟩
  rw [← h0, State.carried, State.carried, hop, hslots]

theorem Exchange.connected_inRange {g g' : Tag} {r r' : Nat} {p p' : Option Fatal}
    (h : ({ x with st := .connected g r p } : Exchange).inRange = true) :
    ({ x with st := .connected g' r' p' } : Exchange).inRange = true :=
  Exchange.inRange_restate (x := { x with st := .connected g r p }) h rfl rfl (by simp [SlotState.mayBeOff])

/-- A connection whose slot record is kept stays in range as long as its data has ended and its CALL or RESUME is answered
no less than before. -/
theorem Carried.leads_of_conn (hslot : k'.c.slot = k.c.slot) (hx : k'.x = k.x)
    (hc : (k'.c.dataEnded = false ∨ k'.c.phase = .opening) → (k.c.dataEnded = false ∨ k.c.phase = .opening)) :
    k.Leads k' where
  slot := hslot
  chain := by rw [hx]
  params := by rw [hx]
  range := fun ⟨hr, hb⟩ => by
    refine ⟨?_, fun hread h => ?_⟩
    · rw [Carried.record, hx]
      exact Exchange.connected_inRange hr
    · rw [hx] at hread ⊢
      exact hb hread (hc h)

theorem slots_of_eq {m : SlotNo} (h : m = n) (hx : s.slots[n] = some x) : s.slots[m] = some x := by
  subst h
  exact hx

/-- The slot of the connection that goes on. -/
theorem State.Conducts.slot (h : s.Conducts k) :
    ∃ x g r p, s.slots[k.c.slot] = some x ∧ x.st = .connected g r p ∧ k.x.chain = x.chain ∧ k.x.params = x.params := by
  obtain ⟨k0, h0, hlead⟩ := h
  obtain ⟨-, hx, hst⟩ := s.carried_spec k0 h0
  exact ⟨k0.x, k0.tag, k0.retry, k0.waiting, slots_of_eq hlead.slot hx, hst, hlead.chain, hlead.params⟩

theorem Carried.record_eq (hst : k.x.st = .connected k.tag k.retry k.waiting) : k.record = k.x := Exchange.st_eta hst

theorem State.Conducts.inRange (h : s.Conducts k) (hr : s.slotsInRange) : k.inRange := by
  obtain ⟨k0, h0, hlead⟩ := h
  obtain ⟨hop, hx, hst⟩ := s.carried_spec k0 h0
  refine hlead.range ⟨?_, fun hread hb => State.connectionFits_iff.mp hr.2 k0.c k0.x hop hx hread hb⟩
  rw [Carried.record_eq hst]
  exact hr.1 _ _ hx

/-- The slot of a connection takes another record in range, with the operation changed or kept. -/
theorem State.slotsInRange_conducted (hr : s.slotsInRange) (hy : y.inRange = true) {op : LinkOp}
    (hb : ∀ c, op = .exchange c → y.op = .read → (c.dataEnded = false ∨ c.phase = .opening) → y.atBoundary = true)
    (hslot : ∀ c, op = .exchange c → c.slot = k.c.slot) :
    ({ s with slots := s.slots.set k.c.slot (some y), link := { s.link with op := op } } : State).slotsInRange := by
  refine ⟨fun m z hz => ?_, State.connectionFits_iff.mpr fun c z hc hz hread h => ?_⟩
  · rcases slots_set_some hz with ⟨-, e⟩ | ⟨-, e⟩
    · exact Option.some.inj e ▸ hy
    · exact hr.1 m z e
  · rcases slots_set_some hz with ⟨-, e⟩ | ⟨hne, -⟩
    · obtain rfl := Option.some.inj e
      exact hb c hc hread h
    · exact absurd (hslot c hc) hne

theorem Exchange.atBoundary_st {st : SlotState} : ({ x with st := st } : Exchange).atBoundary = x.atBoundary := rfl

theorem Moves.carry (h : s.Conducts k) : Moves s (s.carry k) := by
  obtain ⟨x, g, r, p, hx, hst, hchain, hparams⟩ := h.slot
  refine (Move.record k.c.slot x k.record (.exchange k.c) hx
    ⟨hchain, hparams, by rw [hst]; rfl, rfl, nofun⟩
    (State.not_mem_deadlines hx (by simp [hst])) fun hr => ?_).moves
  obtain ⟨hrange, hb⟩ := h.inRange hr
  refine State.slotsInRange_conducted hr hrange (fun c hc hread hend => ?_) fun c hc => ?_
  · obtain rfl := LinkOp.exchange.inj hc
    exact hb hread hend
  · exact congrArg Connection.slot (LinkOp.exchange.inj hc).symm

theorem Moves.carrySend (h : s.Conducts k) (f : Frame) : Moves s ((s.carry k).send f) :=
  (Moves.carry h).trans (Moves.send f)

/-! ### Endings of a connection -/

theorem Moves.finish {f : FinalStatus} {st : Option Byte} {res : List Byte} (hx : s.slots[n] = some x)
    (hnot : x.st.isDone = false) (hr : res = [] ∨ x.op = .control) (hres : res.length ≤ 8) :
    Moves s (s.finish n f st res) := (Moves.enterDone hx hnot hr hres).trans Moves.endOp

theorem Moves.finishMissed {f : FinalStatus} (hx : s.slots[n] = some x) (hnot : x.st.isDone = false) :
    Moves s (s.finishMissed n f a) :=
  (Moves.enterDone hx hnot (.inl rfl) (Nat.zero_le 8)).trans ((Moves.miss a).trans Moves.endOp)

theorem Moves.finish_of_conducts {f : FinalStatus} {st : Option Byte} (h : s.Conducts k) :
    Moves s (s.finish k.c.slot f st []) := by
  obtain ⟨x, g, r, p, hx, hst, -, -⟩ := h.slot
  exact Moves.finish hx (by rw [hst]; rfl) (.inl rfl) (Nat.zero_le 8)

theorem Moves.finishMissed_of_conducts {f : FinalStatus} (h : s.Conducts k) :
    Moves s (s.finishMissed k.c.slot f a) := by
  obtain ⟨x, g, r, p, hx, hst, -, -⟩ := h.slot
  exact Moves.finishMissed hx (by rw [hst]; rfl)

/-! ### The abort phase -/

theorem State.Conducts.giveUpReserved (h : s.Conducts k) : s.giveUpReserved.Conducts k := h.of_same rfl rfl

theorem Moves.enterAbortPhase (h : s.Conducts k) : Moves s (s.enterAbortPhase k) := by
  have hlead : k.Leads { k with retry := 0, c := { k.c with phase := .abortSent, abortSent := true } } :=
    Carried.leads_of_conn rfl rfl (by simp only [reduceCtorEq, or_false]; exact .inl)
  exact Moves.giveUpReserved.trans (Moves.carrySend (h.giveUpReserved.leads hlead) _)

theorem Carried.leads_condemned (k : Carried) (f : Fatal) : k.Leads (k.condemned f) :=
  Carried.leads_of_conn rfl rfl id

theorem Carried.leads_retry (k : Carried) (r : Nat) : k.Leads { k with retry := r } :=
  Carried.leads_of_conn rfl rfl id

theorem Moves.abortRecovery (h : s.Conducts k) : Moves s (s.abortRecovery k) := by
  unfold State.abortRecovery
  split
  · exact Moves.carrySend (h.leads (k.leads_retry _)) _
  · exact Moves.finishMissed_of_conducts h

theorem Moves.abortAtTurn (h : s.Conducts k) : Moves s (s.abortAtTurn k) := by
  unfold State.abortAtTurn
  split
  · exact Moves.enterAbortPhase h
  · exact Moves.carry h

theorem Moves.protocolError (h : s.Conducts k) : Moves s (s.protocolError k) :=
  Moves.abortAtTurn (h.leads (k.leads_condemned _))

theorem Moves.exhausted (h : s.Conducts k) : Moves s (s.exhausted k) :=
  Moves.enterAbortPhase (h.leads (k.leads_condemned _))

theorem Moves.recover {g : State → Carried → State} (h : s.Conducts k)
    (hg : ∀ k', s.Conducts k' → k'.c = k.c → Moves s (g s k')) : Moves s (s.recover k g) := by
  unfold State.recover
  split
  · exact hg _ (h.leads (k.leads_retry _)) rfl
  · exact Moves.exhausted h

/-! ### Bursts, grants and parks -/

theorem Moves.startBurst (h : s.Conducts k) : Moves s (s.startBurst k) := by
  have hlead (b : Nat) : k.Leads { k with c := { k.c with phase := .sending, burst := b, nextSend := k.c.oldest } } :=
    Carried.leads_of_conn rfl rfl (by simp only [reduceCtorEq, or_false]; exact .inl)
  exact Moves.carrySend (h.leads (hlead _)) _

theorem Moves.sendClosingAck (h : s.Conducts k) : Moves s (s.sendClosingAck k) := by
  have hlead : k.Leads { k with c := { k.c with phase := .closing } } :=
    Carried.leads_of_conn rfl rfl (by simp only [reduceCtorEq, or_false]; exact .inl)
  exact Moves.carrySend (h.leads hlead) _

/-- The slot of a connection leaves it for a state in which a READ stands at a boundary. -/
theorem State.Conducts.leaves_inRange {st : SlotState} {b : Nat} (h : s.Conducts k) (hst : st.isDone = false)
    (hbusy : b = k.x.busyCount ∨ b < 8) (hb : k.x.op = .read → k.c.dataEnded = false ∨ k.c.phase = .opening)
    (hr : s.slotsInRange) :
    ({ s with slots := s.slots.set k.c.slot (some { k.x with busyCount := b, st := st }) } : State).slotsInRange := by
  obtain ⟨hrange, hbound⟩ := h.inRange hr
  obtain ⟨hcount, hdone, hareas, hres, hold, -⟩ := Exchange.inRange_iff.mp hrange
  have hat (hread : k.x.op = .read) : k.x.atBoundary = true := hbound hread (hb hread)
  refine State.slotsInRange_conducted (op := s.link.op) (y := { k.x with busyCount := b, st := st }) hr
    (Exchange.inRange_iff.mpr ⟨hcount, hdone, hareas, ?_, ?_, fun hread _ => hat hread⟩)
    (fun c _ hread _ => hat hread) fun c hc => ?_
  · cases st <;> simp_all [SlotState.resultLength, SlotState.isDone]
  · simp only [Carried.record, SlotState.isDone, Bool.false_eq_true, if_false] at hold
    simp only [hst, Bool.false_eq_true, if_false]
    exact hbusy.elim (fun e => e ▸ hold) id
  · obtain ⟨k0, h0, hlead⟩ := h
    obtain ⟨hop, -, -⟩ := s.carried_spec k0 h0
    rw [hop] at hc
    obtain rfl := LinkOp.exchange.inj hc
    exact hlead.slot.symm

theorem Moves.leaveConnection {st : SlotState} {b : Nat} (h : s.Conducts k) (hst : st.isDone = false)
    (hprep : st ≠ .prepared) (hbusy : b = k.x.busyCount ∨ b < 8)
    (hb : k.x.op = .read → k.c.dataEnded = false ∨ k.c.phase = .opening) :
    Moves s (s.setSlot k.c.slot (some { k.x with busyCount := b, st := st })) := by
  obtain ⟨x, g, r, p, hx, hcon, hchain, hparams⟩ := h.slot
  exact (Move.record k.c.slot x { k.x with busyCount := b, st := st } s.link.op hx
    ⟨hchain, hparams, by rw [hcon]; rfl, hst, fun e => absurd e hprep⟩
    (State.not_mem_deadlines hx (by simp [hcon])) (h.leaves_inRange hst hbusy hb)).moves

theorem Moves.parkPool (h : s.Conducts k) (hb : k.c.dataEnded = false) : Moves s (s.parkPool k) := by
  have hstate : Moves s (s.setSlot k.c.slot (some { k.x with st := .parkedPool k.tag })) :=
    Moves.leaveConnection h rfl (by simp) (.inl rfl) fun _ => .inl hb
  exact hstate.trans ((Moves.joinPool _).trans ((Moves.setOp (by simp)).trans (Moves.send _)))

/-- A deadline stands as many ticks ahead as the park limit says, whatever the timebase (R71, R87). -/
theorem deadline_ahead (timebase : BitVec 32) (limit : Word) :
    (timebase + limit.setWidth 32 - timebase).toNat = limit.toNat := by
  rw [BitVec.add_comm, BitVec.add_sub_cancel]
  have := limit.isLt
  simp only [BitVec.toNat_setWidth]
  omega

theorem Moves.parkStation (h : s.Conducts k)
    (hb : k.x.op = .read → k.c.dataEnded = false ∨ k.c.phase = .opening) : Moves s (s.parkStation k) := by
  have hparked : Moves s ((s.setSlot k.c.slot (some (s.parkedRecord k))).arm k.c.slot
      s.stations[k.x.station].parkLimit.toNat) := by
    obtain ⟨x, g, r, p, hx, hcon, hchain, hparams⟩ := h.slot
    refine (Move.park k.c.slot x (s.parkedRecord k) _ _ _ hx
      ⟨hchain, hparams, by rw [hcon]; rfl, rfl, nofun⟩ (by simp [hcon]) rfl (deadline_ahead _ _)
      (Nat.le_of_lt_succ (BitVec.isLt _)) (fun hr => ?_) (h.leaves_inRange (b := k.x.busyCount) rfl (.inl rfl) hb)).moves
    obtain ⟨-, -, -, -, -, hlimit⟩ := hr k.x.station
    exact hlimit
  unfold State.parkStation
  dsimp only
  split
  · exact hparked.trans (Moves.giveUpReserved.trans ((Moves.setOp (by simp)).trans (Moves.send _)))
  · exact hparked.trans ((Moves.setOp (by simp)).trans (Moves.send _))

theorem Moves.grantPoint (h : s.Conducts k) : Moves s (s.grantPoint k) := by
  have hlead (b p : Nat) : k.Leads { k with c := { k.c with
      phase := .awaiting, burst := b, progress := p, discarding := false } } :=
    Carried.leads_of_conn rfl rfl (by simp only [reduceCtorEq, or_false]; exact .inl)
  have hclosing (p : Nat) : k.Leads { k with c := { k.c with burst := 0, progress := p, discarding := false } } :=
    Carried.leads_of_conn rfl rfl id
  have hreserved (m : Nat) : (s.withStage (·.reserveTo m)).Conducts k := h.of_same rfl rfl
  unfold State.grantPoint
  dsimp only
  split
  · next hremains =>
    have hdata : k.c.dataEnded = false := (Carried.dataRemains_iff.mp hremains).1
    split
    · exact (Moves.reserveTo _).trans (Moves.parkPool (hreserved _) hdata)
    · exact (Moves.reserveTo _).trans (Moves.carrySend ((hreserved _).leads (hlead _ _)) _)
  · exact Moves.giveUpReserved.trans (Moves.sendClosingAck (h.giveUpReserved.leads (hclosing _)))

theorem Moves.afterBurst (h : s.Conducts k) : Moves s (s.afterBurst k) := by
  unfold State.afterBurst
  split
  · exact Moves.recover h fun k' h' _ => Moves.grantPoint h'
  · exact Moves.grantPoint h

theorem Moves.afterData (h : s.Conducts k) : Moves s (s.afterData k) := by
  unfold State.afterData
  split
  · exact Moves.afterBurst h
  · exact Moves.carry h

/-! ### The station's endings -/

theorem Moves.closeByStation {status : Byte} {res : List Byte} (h : s.carried = some k)
    (hr : res = [] ∨ k.x.op = .control) (hres : res.length ≤ 8) : Moves s (s.closeByStation k status res) := by
  obtain ⟨-, hx, hst⟩ := s.carried_spec k h
  exact Moves.finish hx (by rw [hst]; rfl) hr hres

theorem Moves.requeue (h : s.Conducts k) (hphase : k.c.phase = .opening) (hbusy : k.x.busyCount + 1 < 8) :
    Moves s (s.requeue k) := by
  have hfreed : (s.setTag k.x.station k.tag none).Conducts k := h.of_same rfl rfl
  have hstate := Moves.leaveConnection (st := .queued) (b := k.x.busyCount + 1) hfreed rfl (by simp) (.inr hbusy)
    fun _ => .inr hphase
  exact (Moves.setTag _ _).trans (hstate.trans ((Moves.joinIssue _ _).trans
    ((Moves.withStation (fun h => h) rfl).trans Moves.endOp)))

theorem Moves.refused {reason : Nat} (h : s.carried = some k) (hphase : k.c.phase = .opening) :
    Moves s (s.refused k reason) := by
  obtain ⟨-, hx, hst⟩ := s.carried_spec k h
  unfold State.refused
  split
  · split
    · next hbusy => exact Moves.requeue (State.conducts_of_carried h) hphase hbusy
    · next hbusy =>
      have hget : (s.setSlot k.c.slot (some { k.x with
          busyCount := k.x.busyCount + 1, st := .connected k.tag k.retry k.waiting })).slots[k.c.slot] =
          some { k.x with busyCount := k.x.busyCount + 1, st := .connected k.tag k.retry k.waiting } :=
        Vector.getElem_set_self k.c.slot.isLt
      rw [State.finish, State.enterDone_eq _ _ _ _ _ _ hget (.inl rfl), State.afterDone_setSlot]
      refine Relation.ReflTransGen.trans ?_ Moves.endOp
      exact Moves.afterDone hx (by rw [hst]; rfl) rfl rfl rfl rfl rfl id (Nat.zero_le 8)
  · exact Moves.finish hx (by rw [hst]; rfl) (.inl rfl) (Nat.zero_le 8)

end Sys2Proof.Machine
end

section
/-!
PROOF. Abort visits, the poll window, and the frames a station sends are runs of moves.
-/
set_option Elab.async false

namespace Sys2Proof.Machine

variable {s t u : State} {n : SlotNo} {x y : Exchange} {c : Connection} {a : StationNo} {k k' : Carried} {w : PollWindow}

/-! ### Abort visits and the poll cleanup -/

/-- A slot that is ABORTING changes its place on or off the link. -/
theorem Moves.restateAborting {g : Tag} {f : Fatal} {o o' : Option Nat} (hx : s.slots[n] = some x)
    (hst : x.st = .aborting g f o) : Moves s (s.setSlot n (some { x with st := .aborting g f o' })) :=
  Moves.restate hx (State.not_mem_deadlines hx (by simp [hst])) (by rw [hst]; rfl) rfl nofun (by simp [SlotState.mayBeOff])

theorem Moves.visitRecovery {limit : Nat} : Moves s (s.visitRecovery n limit) := by
  unfold State.visitRecovery
  split
  · next x hx =>
    split
    · next g f r hst =>
      split
      · exact (Moves.restateAborting hx hst).trans (Moves.send _)
      · exact Moves.finishMissed hx (by rw [hst]; rfl)
    · exact Moves.refl s
  · exact Moves.refl s

theorem Moves.endAborting {st : Option Byte} : Moves s (s.endAborting n st) := by
  unfold State.endAborting
  split
  · next x hx =>
    split
    · next g f r hst => exact Moves.enterDone hx (by rw [hst]; rfl) (.inl rfl) (Nat.zero_le 8)
    · exact Moves.refl s
  · exact Moves.refl s

theorem Moves.takeUp : Moves s (s.takeUp n) := by
  unfold State.takeUp
  split
  · next x hx =>
    split
    · next g f r hst =>
      exact (Moves.leaveLists n).trans (Moves.restateAborting (s := s.leaveLists n) hx hst)
    · exact Moves.refl s
  · exact Moves.refl s

theorem Moves.serveCleanup : Moves s (s.serveCleanup w) := by
  unfold State.serveCleanup
  split
  · exact Moves.endOp
  · next e es h =>
    have hserved (v : State) : Moves v ((v.setOp (.poll { w with phase := .cleaning })).send (abortFrame e.station e.tag)) :=
      (Moves.setOp (by simp)).trans (Moves.send _)
    dsimp only
    split
    · exact Moves.takeUp.trans (hserved _)
    · exact hserved _

theorem Moves.openReplySlot {left : List StationNo} : Moves s (s.openReplySlot w left) := by
  unfold State.openReplySlot
  split
  · exact Moves.withLink _ (by simp)
  · exact Moves.serveCleanup

theorem Moves.endReplySlot : Moves s s.endReplySlot := by
  unfold State.endReplySlot
  split
  · exact Moves.openReplySlot
  · exact Moves.refl s

theorem Moves.nextCleanup : Moves s s.nextCleanup := by
  unfold State.nextCleanup
  split
  · exact Moves.serveCleanup
  · exact Moves.refl s

theorem Moves.enterCleanup (e : CleanupEntry) : Moves s (s.enterCleanup e) := by
  refine Moves.withLink _ fun c h => ?_
  split at h
  · cases h
  · exact h

theorem Moves.orphan (a : StationNo) (g : Tag) : Moves s (s.orphan a g) :=
  (Moves.linkFault _).trans (Moves.enterCleanup _)

theorem Moves.judgeRecall {g : Tag} {offset : Nat} : Moves s (s.judgeRecall a g offset) := by
  unfold State.judgeRecall
  split
  · exact Moves.orphan a g
  · next n _ =>
    split
    · exact Moves.orphan a g
    · next x hx =>
      split
      · next hst =>
        split
        · exact Moves.recalled hx (by rw [hst]; rfl) (by rw [hst]; rfl)
        · exact Moves.condemn hx (by rw [hst]; rfl)
      · next hst =>
        split
        · exact Moves.recalled hx (by rw [hst]; rfl) (by rw [hst]; rfl)
        · exact Moves.refl s
      · exact Moves.enterCleanup _
      · exact Moves.orphan a g

/-! ### Frames that count for the turn only -/

theorem Moves.visitOther {limit : Nat} : Moves s (s.visitOther n limit) := by
  unfold State.visitOther
  split
  · exact Moves.visitRecovery
  · exact Moves.refl s

theorem Moves.cleanupOther : Moves s (s.cleanupOther w) := by
  unfold State.cleanupOther
  split
  · split
    · split
      · exact Moves.endAborting.trans Moves.nextCleanup
      · exact Moves.nextCleanup
    · exact Moves.nextCleanup
  · exact Moves.refl s

theorem Moves.abortSentOther (h : s.Conducts k) : Moves s (s.abortSentOther k) := by
  unfold State.abortSentOther
  split
  · exact Moves.abortRecovery h
  · exact Moves.refl s

theorem Moves.inOperation {normal : State → Carried → State} (hn : ∀ k, s.carried = some k → Moves s (normal s k)) :
    Moves s (s.inOperation normal) := by
  unfold State.inOperation
  split
  · split
    · next k h =>
      split
      · exact Moves.abortSentOther (State.conducts_of_carried h)
      · split
        · exact Moves.abortAtTurn (State.conducts_of_carried h)
        · exact hn k h
    · exact Moves.refl s
  · exact Moves.visitOther
  · exact Moves.cleanupOther
  · exact Moves.refl s

/-! ### ACCEPT, REFUSE, DEFER, CLOSE and ACK -/

theorem Moves.normalAccept {f : FrameBody} (h : s.carried = some k) : Moves s (State.normalAccept f s k) := by
  have hk : s.Conducts k := State.conducts_of_carried h
  have hcredit (b : Nat) : k.Leads { k with c := { k.c with stationCredit := some b } } :=
    Carried.leads_of_conn rfl rfl id
  unfold State.normalAccept
  split
  · exact Moves.grantPoint hk
  · split
    · dsimp only
      split
      · exact Moves.startBurst (hk.leads (hcredit _))
      · exact Moves.sendClosingAck (hk.leads (hcredit _))
    · exact Moves.protocolError hk
  · exact Moves.protocolError hk

theorem Moves.normalRefuse {f : FrameBody} (h : s.carried = some k) : Moves s (State.normalRefuse f s k) := by
  unfold State.normalRefuse
  split
  · next hphase _ => exact Moves.refused h hphase
  · exact Moves.protocolError (State.conducts_of_carried h)

theorem Moves.takeRefuse {f : FrameBody} : Moves s (s.takeRefuse f) := by
  unfold State.takeRefuse
  split
  · next k _ h =>
    have hk : s.Conducts k := State.conducts_of_carried h
    split
    · exact Moves.abortSentOther hk
    · split
      · exact Moves.finish_of_conducts hk
      · exact Moves.abortAtTurn hk
      · exact Moves.normalRefuse h
  · exact Moves.inOperation fun k h => Moves.normalRefuse h

/-- The done count of a WRITE may move up to its count. -/
theorem Carried.leads_of_write {o : Nat} (hop : k.x.op = .write) (ho : o ≤ k.x.count) (hslot : k'.c.slot = k.c.slot)
    (hx : k'.x = { k.x with doneCount := o }) : k.Leads k' where
  slot := hslot
  chain := by rw [hx]
  params := by rw [hx]
  range := fun ⟨hr, _⟩ => by
    refine ⟨?_, fun hread => by rw [hx] at hread; rw [hop] at hread; cases hread⟩
    rw [Carried.record, hx]
    exact Exchange.connected_inRange (Exchange.inRange_doneCount (x := k.record) hop hr ho)

theorem deferValid_leads {o : Nat} (h : deferValid k o = true) :
    k.Leads { k with x := { k.x with doneCount := o } } ∧
      (k.x.op = .read → k.c.dataEnded = false ∨ k.c.phase = .opening) := by
  have hsame (e : o = k.x.doneCount) : k.Leads { k with x := { k.x with doneCount := o } } :=
    Carried.leads_of_conn rfl (by subst e; rfl) id
  unfold deferValid at h
  split at h
  · next hphase => exact ⟨hsame (by simpa using h), fun _ => .inr hphase⟩
  · next hop =>
    simp only [Bool.and_eq_true, decide_eq_true_eq] at h
    have hle : o ≤ k.x.count := h.1.2.trans (Nat.min_le_left _ _)
    exact ⟨Carried.leads_of_write hop hle rfl rfl, fun hread => by rw [hop] at hread; cases hread⟩
  · simp only [Bool.and_eq_true, Bool.not_eq_true', beq_iff_eq] at h
    exact ⟨hsame h.2, fun _ => .inl h.1⟩
  · cases h

theorem Moves.normalDefer {f : FrameBody} (h : s.carried = some k) : Moves s (State.normalDefer f s k) := by
  have hk : s.Conducts k := State.conducts_of_carried h
  unfold State.normalDefer
  split
  · next o _ =>
    split
    · next hvalid =>
      obtain ⟨hlead, hread⟩ := deferValid_leads hvalid
      exact Moves.parkStation (hk.leads hlead) hread
    · exact Moves.protocolError hk
  · exact Moves.protocolError hk

theorem closePermitted_length {f : FrameBody} {op : Op} {b : Byte} {res : List Byte} (h : closePermitted op f = true)
    (hf : f.payload = b :: res) : (res = [] ∨ op = .control) ∧ res.length ≤ 8 := by
  cases op <;> simp_all [closePermitted, Nat.lt_succ_iff]

theorem Moves.useFree : Moves s s.useFree := (Move.counts (s.freeCount + 1) s.pending).moves

theorem Moves.closeCounted (f : FrameBody) : Moves s (s.closeCounted f) := by
  unfold State.closeCounted
  split
  · exact Moves.useFree
  · exact Moves.refl s

theorem State.Conducts.closeCounted (h : s.Conducts k) (f : FrameBody) : (s.closeCounted f).Conducts k := by
  unfold State.closeCounted
  split
  · exact h.of_same rfl rfl
  · exact h

theorem Moves.takeClose {f : FrameBody} : Moves s (s.takeClose f) := by
  have hcounted : Moves s (s.closeCounted f) := Moves.closeCounted f
  rw [State.closeCounted] at hcounted
  unfold State.takeClose
  dsimp only
  split
  · split
    · next k h =>
      have hk : s.Conducts k := State.conducts_of_carried h
      split
      · exact hcounted.trans (Moves.finish_of_conducts (hk.closeCounted f))
      · split
        · next hperm =>
          split
          · next b res hf =>
            obtain ⟨hr, hlen⟩ := closePermitted_length hperm hf
            exact Moves.closeByStation h hr hlen
          · exact Moves.protocolError hk
        · exact Moves.protocolError hk
    · exact Moves.refl s
  · exact hcounted.trans (Moves.endAborting.trans Moves.endOp)
  · split
    · split
      · exact hcounted.trans (Moves.endAborting.trans Moves.nextCleanup)
      · exact Moves.nextCleanup
    · exact Moves.nextCleanup
  · exact Moves.refl s

theorem Moves.acknowledged {seq : Seq} {d credit : Nat} (h : s.Conducts k) (hop : k.x.op = .write) :
    Moves s (s.acknowledged k seq d credit) := by
  have hlead (k' : Carried) (hslot : k'.c.slot = k.c.slot) (hx : k'.x = { k.x with doneCount := ackedCount k d }) :
      s.Conducts k' := h.leads (Carried.leads_of_write hop (Nat.min_le_left _ _) hslot hx)
  unfold State.acknowledged
  dsimp only
  split
  · exact Moves.sendClosingAck (hlead _ rfl rfl)
  · split
    · exact Moves.recover (hlead _ rfl rfl) fun k' h' _ => Moves.startBurst h'
    · exact Moves.startBurst (hlead _ rfl rfl)

theorem Moves.normalAck {f : FrameBody} (h : s.carried = some k) : Moves s (State.normalAck f s k) := by
  have hk : s.Conducts k := State.conducts_of_carried h
  unfold State.normalAck
  split
  · next hop _ =>
    dsimp only
    split
    · exact Moves.acknowledged hk hop
    · exact Moves.protocolError hk
  · exact Moves.protocolError hk

/-! ### DATA -/

theorem State.carry_carry (h : k'.c.slot = k.c.slot) : (s.carry k).carry k' = s.carry k' := by
  obtain ⟨c', x', g', r', p'⟩ := k'
  obtain ⟨c, x, g, r, p⟩ := k
  dsimp only at h
  simp only [State.carry, State.setSlot, State.setOp, State.withLink, h, Vector.set_set]

/-- A connection written back before the grant point is written over (R59, R60). -/
theorem State.grantPoint_carry (h : k'.c.slot = k.c.slot) : (s.carry k).grantPoint k' = s.grantPoint k' := by
  have hcredit : (s.carry k).grantCredit k' = s.grantCredit k' := rfl
  unfold State.grantPoint
  rw [hcredit]
  dsimp only
  split
  · split
    · simp only [State.parkPool, State.carry, State.setSlot, State.setOp, State.withLink, State.withStage, State.joinPool,
        State.withArb, State.send, Fin.val_inj.mpr h, Vector.set_set]
    · exact congrArg (State.send · _) (State.carry_carry (s := s.withStage (·.reserveTo (s.grantCredit k'))) h)
  · exact congrArg (State.send · _) (State.carry_carry (s := s.giveUpReserved) h)

theorem State.exhausted_carry (h : k'.c.slot = k.c.slot) : (s.carry k).exhausted k' = s.exhausted k' :=
  congrArg (State.send · _) (State.carry_carry (s := s.giveUpReserved) h)

/-- What follows a DATA frame starts by writing the connection back. -/
theorem State.afterData_carry (s : State) (k : Carried) : (s.carry k).afterData k = s.afterData k := by
  have hturn : (s.carry k).link.turn = s.link.turn := rfl
  simp only [State.afterData, State.afterBurst, State.recover, hturn, State.grantPoint_carry, State.exhausted_carry,
    State.carry_carry]

theorem State.carried_carry : (s.carry k).carried = some { k with x := k.record } := by
  have hget : (s.carry k).slots[k.c.slot] = some k.record := Vector.getElem_set_self k.c.slot.isLt
  have hop : (s.carry k).link.op = .exchange k.c := rfl
  simp only [State.carried, hop, hget, Carried.record]

theorem State.conducts_carry : (s.carry k).Conducts k :=
  ⟨_, State.carried_carry, rfl, rfl, rfl, fun ⟨hr, hb⟩ => ⟨hr, hb⟩⟩

theorem dataAcceptable_iff {l : List Page} {f : FrameBody} : dataAcceptable k l f = true ↔
    1 ≤ f.payload.length ∧ (f.last = true ∨ f.payload.length = 64) ∧ k.x.doneCount + f.payload.length ≤ k.x.count ∧
      k.c.dataEnded = false ∧ l ≠ [] := by
  simp [dataAcceptable, and_assoc]

/-- A READ at a page boundary stays in range when one more page is filled, and off a boundary its data has ended (R61,
R129). -/
theorem Carried.filledBy_inRange {p : Page} {l : List Page} {f : FrameBody} (hread : k.x.op = .read)
    (hphase : k.c.phase = .awaiting) (hok : dataAcceptable k l f = true) (hlen : f.payload.length ≤ 64)
    (h : k.inRange) : (k.filledBy p f).inRange := by
  obtain ⟨hone, hshape, hle, hended, -⟩ := dataAcceptable_iff.mp hok
  obtain ⟨hr, hb⟩ := h
  have hboundary : k.x.doneCount % 64 = 0 := by
    have := hb hread (.inl hended)
    simp only [Exchange.atBoundary, Bool.or_eq_true, beq_iff_eq] at this
    omega
  obtain ⟨hcount, -, hareas, -, hbusy, -⟩ := Exchange.inRange_iff.mp hr
  refine ⟨Exchange.inRange_iff.mpr ⟨hcount, hle, ?_, Nat.zero_le 8, hbusy, fun _ hoff => nomatch hoff⟩, fun _ hdata => ?_⟩
  · simp only [Exchange.areasFit, Carried.record, Carried.filledBy, hread, frames, Bool.and_eq_true, beq_iff_eq,
      List.length_append, List.length_singleton] at hareas ⊢
    exact ⟨by omega, hareas.2⟩
  · simp only [Carried.filledBy, hphase, reduceCtorEq, or_false, Bool.or_eq_false_iff, beq_eq_false_iff_ne] at hdata
    simp only [Exchange.atBoundary, Carried.filledBy, Bool.or_eq_true, beq_iff_eq]
    simp only [hdata.1, Bool.false_eq_true, false_or] at hshape
    omega

theorem Moves.fillReserved {p : Page} {rest : List Page} {f : FrameBody} (h : s.carried = some k)
    (hread : k.x.op = .read) (hphase : k.c.phase = .awaiting) (hp : s.stage.reserved = p :: rest)
    (hok : dataAcceptable k s.stage.reserved f = true) (hlen : f.payload.length ≤ 64) :
    Moves s (({ s with stage := { s.stage with
      reserved := rest, mem := Memory.fillPage s.stage.mem p f.payload } } : State).carry (k.filledBy p f)) := by
  obtain ⟨-, hx, hst⟩ := s.carried_spec k h
  refine (Move.fill k.c.slot k.x (k.filledBy p f).record p rest f.payload (.exchange (k.filledBy p f).c) hx
    (by simp [Exchange.isConnectedRead, hread, hst])
    (by simp [Exchange.isConnectedRead, Carried.record, Carried.filledBy, hread]) rfl rfl hp fun hr => ?_).moves
  obtain ⟨hrange, hb⟩ := Carried.filledBy_inRange (p := p) hread hphase hok hlen ((State.conducts_of_carried h).inRange hr)
  refine State.slotsInRange_conducted (k := k) hr hrange (fun c hc hread' hend => ?_) fun c hc => ?_
  · obtain rfl := LinkOp.exchange.inj hc
    exact hb hread' hend
  · obtain rfl := LinkOp.exchange.inj hc
    rfl

theorem Moves.normalData {f : FrameBody} (h : s.carried = some k) (hlen : f.payload.length ≤ 64) :
    Moves s (State.normalData f s k) := by
  have hk : s.Conducts k := State.conducts_of_carried h
  unfold State.normalData
  split
  · next hphase hop =>
    split
    · split
      · next hok =>
        obtain ⟨-, -, -, -, hsome⟩ := dataAcceptable_iff.mp hok
        obtain ⟨p, rest, hp⟩ := List.exists_cons_of_ne_nil hsome
        have hfilled := Moves.fillReserved h hop hphase hp hok hlen
        simp only [State.fillReserved, hp]
        rw [← State.afterData_carry]
        exact hfilled.trans (Moves.afterData State.conducts_carry)
      · exact Moves.protocolError hk
    · exact Moves.afterData (hk.leads (Carried.leads_of_conn rfl rfl id))
  · exact Moves.protocolError hk

end Sys2Proof.Machine
end

section
/-!
PROOF. The frames at the receiver, the frames the head sends, the timers and the host's accesses are runs of moves. Where an
operation begins with what is no move (a claim, the advance of the timebase, a reset), the run follows it.
-/
set_option Elab.async false

namespace Sys2Proof.Machine

variable {s t u : State} {n : SlotNo} {x y : Exchange} {c : Connection} {a : StationNo} {k k' : Carried} {w : PollWindow}

/-! ### The receiver -/

theorem Moves.takeRecall {r : Option (Byte × Nat)} : Moves s (s.takeRecall a r) := by
  unfold State.takeRecall
  split
  · split
    · exact Moves.judgeRecall
    · exact Moves.linkFault _
  · exact Moves.refl s

theorem Moves.takeAttention {code : Option Byte} : Moves s (s.takeAttention a code) := by
  unfold State.takeAttention
  split
  · exact Moves.attention a _
  · exact Moves.refl s

theorem Moves.takeReply {f : FrameBody} : Moves s (s.takeReply f) := by
  unfold State.takeReply
  split
  · unfold State.replyInSlot
    split
    · exact (Moves.withStation (fun h => h) rfl).trans
        (Moves.takeRecall.trans (Moves.takeAttention.trans Moves.endReplySlot))
    · exact (Moves.linkFault _).trans Moves.endReplySlot
  · exact Moves.inOperation fun k h => Moves.protocolError (State.conducts_of_carried h)

theorem Moves.takeTurn (f : Frame) : Moves s (s.takeTurn f) := by
  unfold State.takeTurn
  split
  · split
    · exact Moves.withLink _ fun _ h => h
    · exact Moves.withLink _ fun _ h => h
  · exact Moves.refl s

theorem Moves.receive {f : Frame} {together : Bool} {phase : State → State}
    (h : f.body.payload.length ≤ 64 → ∀ u, Moves u (phase u)) : Moves s (s.receive f together phase) := by
  unfold State.receive
  split
  · exact Moves.refl s
  · split
    · exact Moves.badFrame _
    · next hlen =>
      split
      · exact (Moves.stationSeen _).trans ((Moves.takeTurn f).trans ((h (Nat.not_lt.mp hlen) _).trans Moves.choose))
      · exact Moves.badFrame _

/-- A frame of any kind taken by its meaning. -/
theorem Moves.receiveByKind {f : Frame} {together : Bool} : Moves s (s.receiveByKind f together) := by
  refine Moves.receive fun hlen u => ?_
  have hcondemned : Moves u (u.inOperation State.protocolError) :=
    Moves.inOperation fun k h => Moves.protocolError (State.conducts_of_carried h)
  split
  · exact Moves.inOperation fun k h => Moves.normalAccept h
  · exact Moves.takeRefuse
  · exact Moves.inOperation fun k h => Moves.normalDefer h
  · exact Moves.takeClose
  · exact Moves.inOperation fun k h => Moves.normalAck h
  · exact Moves.inOperation fun k h => Moves.normalData h hlen
  · exact Moves.takeReply
  all_goals exact hcondemned

theorem Moves.receiveBytes {b : ReceivedBytes} : Moves s (s.receiveBytes b) := by
  unfold State.receiveBytes
  split
  · exact Moves.refl s
  · split
    · exact Moves.refl s
    · exact Moves.badFrame _
  · exact Moves.receiveByKind

/-! ### The frames the head sends -/

theorem Moves.passTo (f : Frame) : Moves s (s.passTo f) := by
  unfold State.passTo
  split
  · exact Moves.passTurn _
  · exact Moves.refl s

theorem Moves.dataSent (f : Frame) : Moves s (s.dataSent f) := by
  unfold State.dataSent
  split
  · next k h =>
    have hk : s.Conducts k := State.conducts_of_carried h
    have hnext (q : Seq) : s.Conducts { k with c := { k.c with nextSend := q } } :=
      hk.leads (Carried.leads_of_conn rfl rfl id)
    have hawaiting (q : Seq) : s.Conducts { k with c := { k.c with nextSend := q, phase := .awaiting } } :=
      hk.leads (Carried.leads_of_conn rfl rfl (by simp only [reduceCtorEq, or_false]; exact .inl))
    dsimp only
    split
    · exact (Moves.carry (hawaiting _)).trans (Moves.passTo f)
    · split
      · exact Moves.enterAbortPhase (hnext _)
      · exact Moves.carrySend (hnext _) _
  · exact Moves.refl s

theorem Moves.parkedDone (f : Frame) : Moves s (s.parkedDone f) := by
  unfold State.parkedDone
  split
  · exact Moves.endOp.trans Moves.choose
  · exact Moves.refl s

theorem Moves.pollDone (f : Frame) : Moves s (s.pollDone f) := by
  unfold State.pollDone
  split
  · exact (Moves.withArb _ rfl rfl).trans Moves.openReplySlot
  · exact Moves.refl s

theorem Moves.sent {kind : FrameKind} {g : State → Frame → State} (h : ∀ f, Moves s (g s f)) :
    Moves s (s.sent kind g) := by
  unfold State.sent
  split
  · split
    · exact h _
    · exact Moves.refl s
  · exact Moves.refl s

/-! ### Timers -/

theorem Moves.expire : Moves s (s.expire n) := by
  unfold State.expire
  split
  · next x hx =>
    split
    · next hst => exact Moves.condemn hx (by rw [hst]; rfl)
    · exact Moves.refl s
  · exact Moves.refl s

theorem Moves.expireWhile (l : List SlotNo) : Moves s (s.expireWhile l) := by
  induction l generalizing s with
  | nil => exact Moves.refl s
  | cons m l ih =>
    unfold State.expireWhile
    split
    · exact Moves.expire.trans ih
    · exact Moves.refl s

theorem Moves.takeExpiries : Moves s s.takeExpiries := (Moves.expireWhile _).trans Moves.choose

theorem Moves.pollTimerExpires : Moves s s.pollTimerExpires := by
  refine (Move.arb _ fun h => ?_).moves
  obtain ⟨-, hpoll, -, -, hfair, -, -, -⟩ := h
  exact ⟨hfair, hpoll, Nat.le_of_lt_succ (BitVec.isLt _)⟩

theorem Moves.pollTick : Moves s s.pollTick := by
  unfold State.pollTick
  split
  · exact Moves.pollTimerExpires.trans Moves.choose
  · next hruns =>
    refine (Move.arb _ fun h => ?_).moves
    obtain ⟨-, -, -, -, hfair, -, hhigh, -⟩ := h
    simp only [State.pollTimerEnds, decide_eq_true_eq] at hruns
    exact ⟨hfair, by dsimp only; omega, by dsimp only; omega⟩

/-- What follows the advance of the timebase itself. -/
theorem Moves.advance : Moves s.tick s.advance := by
  unfold State.advance
  split
  · split
    · exact Moves.useFree.trans (Moves.pollTick.trans Moves.takeExpiries)
    · exact Moves.useFree.trans (Moves.takeExpiries.trans Moves.pollTick)
  · split
    · exact Moves.takeExpiries.trans Moves.pollTick
    · exact Moves.pollTick

theorem Moves.expireHead : Moves s s.expireHead := by
  unfold State.expireHead
  split
  · split
    · exact Moves.expire.trans Moves.choose
    · exact Moves.refl s
  · exact Moves.refl s

theorem Moves.connectionTimeout (h : s.Conducts k) : Moves s (s.connectionTimeout k) := by
  unfold State.connectionTimeout
  split
  · exact Moves.abortRecovery h
  · split
    · exact Moves.enterAbortPhase h
    · split
      · split
        · exact Moves.carrySend (h.leads (k.leads_retry _)) _
        · exact Moves.finishMissed_of_conducts h
      · exact Moves.recover h fun k' h' _ => Moves.startBurst h'
      · exact Moves.recover h fun k' h' _ => Moves.grantPoint h'
      · exact Moves.recover h fun k' h' _ => Moves.sendClosingAck h'
      · exact Moves.refl s

theorem Moves.cleanupTimeout : Moves s (s.cleanupTimeout w) := by
  unfold State.cleanupTimeout
  split
  · split
    · exact Moves.endAborting.trans ((Moves.miss _).trans Moves.nextCleanup)
    · exact (Moves.miss _).trans Moves.nextCleanup
  · exact Moves.nextCleanup

theorem Moves.replyTimeout : Moves s s.replyTimeout := by
  unfold State.replyTimeout
  split
  · exact Moves.refl s
  · have hback : Moves s (s.withLink fun l => { l with turn := .head, replyTimer := none }) :=
      Moves.withLink _ fun _ h => h
    dsimp only
    split
    · split
      · next k h =>
        exact hback.trans ((Moves.connectionTimeout (State.conducts_of_carried h)).trans (Moves.choose.trans Moves.openLate))
      · exact Moves.refl s
    · exact hback.trans (Moves.visitRecovery.trans (Moves.choose.trans Moves.openLate))
    · exact hback.trans (Moves.cleanupTimeout.trans (Moves.choose.trans Moves.openLate))
    · exact Moves.refl s

theorem Moves.replySlotTimeout : Moves s s.replySlotTimeout := by
  unfold State.replySlotTimeout
  split
  · exact (Moves.miss _).trans (Moves.endReplySlot.trans (Moves.choose.trans Moves.openLate))
  · exact Moves.refl s

/-! ### Link reset and station loss -/

theorem Moves.foldl {f : State → SlotNo → State} (h : ∀ s n, Moves s (f s n)) (l : List SlotNo) :
    Moves s (l.foldl f s) := by
  induction l generalizing s with
  | nil => exact Moves.refl s
  | cons m l ih => exact (h s m).trans ih

theorem SlotState.not_done_of_tag {st : SlotState} (h : st.tag?.isSome = true) : st.isDone = false := by
  cases st <;> simp_all [SlotState.tag?, SlotState.isDone]

theorem Moves.endByLinkReset : Moves s (s.endByLinkReset n) := by
  unfold State.endByLinkReset
  split
  · next h =>
    unfold State.holdsTag at h
    split at h
    · next x hx => exact Moves.enterDone hx (SlotState.not_done_of_tag h) (.inl rfl) (Nat.zero_le 8)
    · cases h
  · exact Moves.refl s

theorem Moves.mapStations {f : Station → Station} (hr : ∀ st, st.inRange → (f st).inRange)
    (ha : ∀ st, (f st).attention = st.attention) : Moves s { s with stations := s.stations.map f } := by
  refine (Move.stations _ (fun a h => ?_) fun a h => ?_).moves
  · simp only [Fin.getElem_fin, Vector.getElem_map]
    exact hr _ h
  · simp only [Fin.getElem_fin, Vector.getElem_map, ha] at h
    exact .inl h

theorem Moves.beginLinkReset : Moves s s.beginLinkReset := by
  have hcut : Moves s (s.withLink fun _ =>
      { op := .resetBreak, turn := .nobody, replyTimer := none, sending := none, lateOpen := false }) :=
    Moves.withLink _ (by simp)
  have hended (v : State) : Moves v ((List.finRange 32).foldl State.endByLinkReset v) :=
    Moves.foldl (fun _ _ => Moves.endByLinkReset) _
  unfold State.beginLinkReset
  dsimp only
  exact hcut.trans ((hended _).trans (Moves.giveUpReserved.trans
    (Moves.mapStations (fun _ h => ⟨Nat.zero_le 3, h.2⟩) fun _ => rfl)))

theorem Moves.linkReset : Moves s s.linkReset := by
  unfold State.linkReset
  split
  · exact Moves.result _ _
  · exact Moves.beginLinkReset.trans (Moves.result _ _)

theorem Moves.breakEnds : Moves s s.breakEnds := by
  unfold State.breakEnds
  split
  · exact Moves.setOp (by simp)
  · exact Moves.refl s

theorem Moves.linkResetEnds : Moves s s.linkResetEnds := by
  unfold State.linkResetEnds
  split
  · exact Moves.endOp.trans ((Moves.report (by simp)).trans Moves.choose)
  · exact Moves.refl s

theorem Moves.loseSlot : Moves s (s.loseSlot a n) := by
  unfold State.loseSlot
  split
  · next x hx =>
    have hended (f : FinalStatus) (h : x.st.isDone = false) : Moves s (s.enterDone n f none []) :=
      Moves.enterDone hx h (.inl rfl) (Nat.zero_le 8)
    split
    · split
      · next hst => exact hended _ (by rw [hst]; rfl)
      · next hst => exact hended _ (by rw [hst]; rfl)
      · next hst => exact hended _ (by rw [hst]; rfl)
      · next hst => exact hended _ (by rw [hst]; rfl)
      · next hst => exact hended _ (by rw [hst]; rfl)
      · next hst =>
        exact Moves.restate hx (State.not_mem_deadlines hx (by simp [hst])) (by rw [hst]; rfl) rfl nofun
          (by simp [SlotState.mayBeOff])
      · exact Moves.refl s
    · exact Moves.refl s
  · exact Moves.refl s

theorem Moves.stationOff : Moves s (s.stationOff a) := by
  unfold State.stationOff
  split
  · exact Moves.result _ _
  · exact (Moves.withStation (fun h => ⟨Nat.zero_le 3, h.2⟩) rfl).trans
      ((Moves.foldl (fun _ _ => Moves.loseSlot) _).trans (Moves.result _ _))

/-! ### The other commands -/

theorem Moves.onSlot {f : SlotNo → State} (h : ∀ n, Moves s (f n)) : Moves s (s.onSlot f) := by
  unfold State.onSlot
  split
  · exact h _
  · exact Moves.result _ _

theorem Moves.issueSlot : Moves s (s.issueSlot n) := by
  unfold State.issueSlot
  split
  · next x hx =>
    split
    · next hst =>
      split
      · exact Moves.result _ _
      · have hqueued : Moves s (s.setSlot n (some { x with st := .queued })) :=
          Moves.restate hx (State.not_mem_deadlines hx (by simp [hst])) (by rw [hst]; rfl) rfl nofun
            fun h hread _ => State.atBoundary_of h hx hread (by rw [hst]; rfl)
        exact hqueued.trans ((Moves.joinIssue _ _).trans ((Moves.result _ _).trans Moves.choose))
    · exact Moves.result _ _
  · exact Moves.result _ _

theorem Moves.abortSlot : Moves s (s.abortSlot n) := by
  unfold State.abortSlot
  split
  · next x hx =>
    have hcondemned (g : Tag) (h : x.st.isDone = false) :
        Moves s ((s.condemn n x g .aborted).result .ok n.val).choose :=
      (Moves.condemn hx h).trans ((Moves.result _ _).trans Moves.choose)
    split
    · next hst =>
      exact (Moves.enterDone hx (by rw [hst]; rfl) (.inl rfl) (Nat.zero_le 8)).trans
        ((Moves.result _ _).trans Moves.choose)
    · next hst => exact hcondemned _ (by rw [hst]; rfl)
    · next hst => exact hcondemned _ (by rw [hst]; rfl)
    · next hst => exact hcondemned _ (by rw [hst]; rfl)
    · exact Moves.result _ _
    · next g r hst =>
      have hmarked : Moves s (s.setSlot n (some { x with st := .connected g r (some .aborted) })) :=
        Moves.restate hx (State.not_mem_deadlines hx (by simp [hst])) (by rw [hst]; rfl) rfl nofun
          (by simp [SlotState.mayBeOff])
      exact hmarked.trans (Moves.result _ _)
    · exact Moves.result _ _
    · exact Moves.result _ _
    · exact Moves.result _ _
  · exact Moves.result _ _

theorem Moves.freeSlot (hx : s.slots[n] = some x)
    (hst : x.st = .prepared ∨ (x.st.isDone = true ∧ x.st.isUnread = false)) : Moves s (s.freeSlot n x) :=
  (Move.release n x hx hst).moves

theorem Moves.releaseSlot : Moves s (s.releaseSlot n) := by
  unfold State.releaseSlot
  split
  · next x hx =>
    split
    · next hst => exact (Moves.freeSlot hx (.inl hst)).trans ((Moves.result _ _).trans Moves.choose)
    · next hst =>
      split
      · exact Moves.result _ _
      · next hread =>
        refine (Moves.freeSlot hx (.inr ?_)).trans ((Moves.result _ _).trans Moves.choose)
        rw [hst]
        exact ⟨rfl, Bool.eq_false_of_not_eq_true hread⟩
    · exact Moves.result _ _
  · exact Moves.result _ _

theorem Moves.onStation {f : StationNo → State} (h : ∀ a, Moves s (f a)) : Moves s (s.onStation f) := by
  unfold State.onStation
  split
  · exact h _
  · exact Moves.result _ _

theorem Moves.stationOn : Moves s (s.stationOn a) := by
  unfold State.stationOn
  split
  · exact (Moves.withStation (fun h => ⟨Nat.zero_le 3, h.2⟩) rfl).trans ((Moves.result _ _).trans Moves.choose)
  · exact Moves.result _ _

theorem Moves.stationConfig : Moves s (s.stationConfig a) := by
  unfold State.stationConfig
  split
  · next h =>
    obtain ⟨hdepth, hdepth', hcredit, hcredit', hpark⟩ := s.configInRange_iff.mp h
    split
    · exact (Moves.withStation (fun hr => ⟨hr.1, hdepth, hdepth', hcredit, hcredit', hpark⟩) rfl).trans (Moves.result _ _)
    · exact Moves.result _ _
  · exact Moves.result _ _

theorem Moves.pollNow : Moves s s.pollNow :=
  (Moves.withArb _ rfl rfl).trans ((Moves.result _ _).trans Moves.choose)

/-! ### Registers, the stage port and the event queue -/

theorem Moves.changeHost (f : HostPort → HostPort) (h : s.host.KeepsRange (f s.host)) : Moves s (s.withHost f) :=
  (Move.host (f s.host) h).moves

theorem Moves.controlWrite (v : Word) : Moves s (s.controlWrite v) := by
  have hmarks : Moves s (s.setMarks v) := Moves.withHost _ rfl rfl rfl rfl
  unfold State.controlWrite
  split
  · exact hmarks.trans Moves.choose
  · exact hmarks

theorem Moves.linkConfigWrite (second : Bool) (v : Word) : Moves s (s.linkConfigWrite second v) := by
  refine Moves.changeHost _ ?_
  cases second with
  | false =>
    refine ⟨fun _ => ?_, id, id, id⟩
    change 8 ≤ (clampReplyTime _).toNat
    unfold clampReplyTime
    split
    · exact Nat.le_refl 8
    · omega
  | true =>
    refine ⟨id, fun _ => ?_, id, id⟩
    change 1 ≤ (clampPollInterval _).toNat
    unfold clampPollInterval
    split
    · exact Nat.le_refl 1
    · next h => exact Nat.one_le_iff_ne_zero.mpr fun e => h (BitVec.eq_of_toNat_eq e)

theorem Moves.hostFaultWrite (v : Word) : Moves s (s.hostFaultWrite v) := by
  unfold State.hostFaultWrite
  split
  · exact Moves.changeHost _ ⟨id, id, id, fun _ => rfl⟩
  · exact Moves.refl s

theorem Moves.stageSlotWrite (v : Word) : Moves s (s.stageSlotWrite v) := by
  unfold State.stageSlotWrite
  split
  · exact Moves.changeHost _ ⟨id, id, fun _ => rfl, id⟩
  · exact Moves.misuse _

theorem evenBelow_even (v : Word) : (evenBelow v).toNat % 2 = 0 := by
  rw [evenBelow_toNat]
  exact Nat.mul_mod_left _ _

theorem Moves.stageOffsetWrite (v : Word) : Moves s (s.stageOffsetWrite v) := by
  have hmoved : Moves s (s.withHost fun p => { p with stageOffset := evenBelow v }) :=
    Moves.changeHost _ ⟨id, id, fun _ => evenBelow_even v, id⟩
  unfold State.stageOffsetWrite
  dsimp only
  split
  · exact hmoved.trans (Moves.misuse _)
  · exact hmoved

theorem Moves.advanceOffset : Moves s s.advanceOffset := by
  refine Moves.changeHost _ ⟨id, id, fun h => ?_, id⟩
  have htwo : (2 : Word).toNat = 2 := rfl
  simp only [BitVec.toNat_add, htwo] at h ⊢
  omega

theorem readByte_setChainByte_other {m : Memory} {chain : List Page} {o : Nat} {v : Byte} {p : Page} {i : Nat}
    (hp : p ∉ chain) (hi : i < 64) :
    Memory.readByte (Memory.setChainByte m chain o v) (pageAddress p i) = Memory.readByte m (pageAddress p i) := by
  unfold Memory.setChainByte
  split
  · next q hq =>
    refine Memory.readByte_writeByte_other _ _ _ _ fun e => hp ?_
    rw [← (pageAddress_inj q p _ i (Nat.mod_lt _ (by decide)) hi e).1]
    exact List.mem_of_getElem? hq
  · rfl

/-- A word stored in a page chain leaves the pages of every other chain (R134). -/
theorem readByte_putChain_other {m : Memory} {chain : List Page} {o limit : Nat} {v : Word} {p : Page} {i : Nat}
    (hp : p ∉ chain) (hi : i < 64) :
    Memory.readByte (putChain m chain o limit v) (pageAddress p i) = Memory.readByte m (pageAddress p i) := by
  unfold putChain
  split
  · rw [readByte_setChainByte_other hp hi, readByte_setChainByte_other hp hi]
  · exact readByte_setChainByte_other hp hi

theorem Moves.storeWord {o : Nat} {v : Word} (hx : s.slots[n] = some x) (hst : x.st = .prepared) :
    Moves s (s.storeWord n x o v) := by
  have hchain : Moves s (s.withStage fun g => { g with mem := putChain g.mem x.chain o x.count v }) := by
    have hmove := Move.store n x x (putChain s.stage.mem x.chain o x.count v) hx hst hst rfl
      (State.slotsInRange_set hx id rfl rfl rfl) (putChain_wf _ _ _ _ _) fun p hp i hi => readByte_putChain_other hp hi
    have hself : s.slots.set n (some x) = s.slots := congrArg State.slots (State.setSlot_self hx)
    rw [hself] at hmove
    exact hmove.moves
  unfold State.storeWord
  split
  · next hop =>
    refine (Move.store n x { x with params := putParams x.params o x.count v } s.stage.mem hx hst hst rfl ?_ id
      fun _ _ _ _ => rfl).moves
    refine State.slotsInRange_set hx (fun hr => ?_) rfl rfl rfl
    obtain ⟨hcount, hdone, hareas, hres, hbusy, hread⟩ := Exchange.inRange_iff.mp hr
    refine Exchange.inRange_iff.mpr ⟨hcount, hdone, ?_, hres, hbusy, hread⟩
    simpa only [Exchange.areasFit, hop, length_putParams] using hareas
  · exact hchain

theorem Exchange.prepared_of_writeAllowed (h : x.writeAllowed = true) : x.st = .prepared := by
  unfold Exchange.writeAllowed at h
  split at h
  · assumption
  · assumption
  · cases h

theorem Moves.stageDataWrite (v : Word) : Moves s (s.stageDataWrite v) := by
  unfold State.stageDataWrite
  split
  · exact Moves.misuse _
  · next x hx =>
    split
    · next hallowed =>
      split
      · exact (Moves.storeWord hx (Exchange.prepared_of_writeAllowed hallowed)).trans Moves.advanceOffset
      · exact Moves.misuse _
    · exact Moves.misuse _

theorem Moves.stageDataRead : Moves s s.stageDataRead.2 := by
  unfold State.stageDataRead
  split
  · exact Moves.misuse _
  · split
    · exact Moves.misuse _
    · split
      · exact Moves.advanceOffset
      · exact Moves.misuse _

theorem Moves.eventPop : Moves s s.eventPop := by
  cases h : s.events.records with
  | nil =>
    unfold State.eventPop
    rw [h]
    exact (Move.snapshot none).moves
  | cons r rest => exact (Move.pop r rest h).moves

end Sys2Proof.Machine
end

section
/-!
PROOF. Every step begins with at most one change that is no move, and goes on with moves alone.
-/
set_option Elab.async false

namespace Sys2Proof.Machine

variable {s t u : State} {n : SlotNo} {x y : Exchange} {a : StationNo} {i : Instr}

/-- A FREE slot becomes PREPARED with its arguments, and takes the pages of a WRITE (R11). -/
def State.claimed (s : State) (n : SlotNo) (g : ClaimArgs) : State :=
  (s.withStage (·.takeZeroed (pagesClaimed g))).setSlot n
    (some (claimedExchange g (s.stage.free.take (pagesClaimed g))))

/-- What a step may begin with: nothing, a claim, or a reset. -/
inductive Start (s : State) : State → Prop where
  | same : Start s s
  | claimed (n : SlotNo) (g : ClaimArgs) (hn : s.slots[n] = none) (hlen : pagesClaimed g ≤ s.stage.free.length)
      (hcount : countInRange g.op g.count = true) : Start s (s.claimed n g)
  | softReset : Start s s.softReset
  | hardwareReset (held : Bool) (strap : BitVec 2) (op : LinkOp) (hop : ∀ c, op ≠ .exchange c) :
      Start s (s.hardwareReset held strap op)

/-- A step leads from one state to another: by the advance of the timebase with all that falls on it, or by moves. -/
inductive Leads (s : State) : State → Prop where
  | advance : Leads s s.advance
  | moves {u t : State} (hu : Start s u) (h : Moves u t) : Leads s t

theorem Moves.leads (h : Moves s t) : Leads s t := .moves .same h

/-- The advance of the timebase is followed by moves too. -/
theorem Leads.begins (h : Leads s t) : ∃ u, (Start s u ∨ u = s.tick) ∧ Moves u t := by
  cases h with
  | advance => exact ⟨_, .inr rfl, Moves.advance⟩
  | moves hu h => exact ⟨_, .inl hu, h⟩

/-! ### Commands -/

theorem State.lowestFree_none (h : s.lowestFree = some n) : s.slots[n] = none := by
  have := List.find?_some h
  simpa using this

theorem Leads.claim : Leads s s.claim := by
  unfold State.claim
  split
  · exact (Moves.result _ _).leads
  · next g hg =>
    split
    · exact (Moves.result _ _).leads
    · split
      · exact (Moves.result _ _).leads
      · next n hn =>
        split
        · exact (Moves.result _ _).leads
        · next hlen =>
          obtain ⟨-, -, -, -, hrange, -⟩ := State.claimArgs_eq_some.mp hg
          exact .moves (.claimed n g (State.lowestFree_none hn) (Nat.not_lt.mp hlen) hrange) (Moves.result _ _)

theorem Leads.softReset : Leads s s.softReset := .moves .softReset (Moves.refl _)

theorem Leads.command (code : Byte) : Leads s (s.command code) := by
  unfold State.command
  split
  · exact Leads.claim
  · exact (Moves.onSlot fun _ => Moves.issueSlot).leads
  · exact (Moves.onSlot fun _ => Moves.abortSlot).leads
  · exact (Moves.onSlot fun _ => Moves.releaseSlot).leads
  · exact (Moves.onStation fun _ => Moves.stationOn).leads
  · exact (Moves.onStation fun _ => Moves.stationOff).leads
  · exact (Moves.onStation fun _ => Moves.stationConfig).leads
  · exact Moves.linkReset.leads
  · exact Moves.pollNow.leads
  · exact Leads.softReset
  · exact (Moves.result _ _).leads

theorem Moves.slotSelectWrite (v : Word) : Moves s (s.slotSelectWrite v) := Moves.withHost _ rfl rfl rfl rfl

theorem Moves.stationSelectWrite (v : Word) : Moves s (s.stationSelectWrite v) := Moves.withHost _ rfl rfl rfl rfl

theorem Moves.slotView0Read : Moves s s.slotView0Read.2 :=
  Moves.withHost (fun h => { h with slotView := some s.selectedSlotWords }) rfl rfl rfl rfl

theorem Moves.stationView0Read : Moves s s.stationView0Read.2 :=
  Moves.withHost (fun h => { h with stationView := some s.selectedStationWords }) rfl rfl rfl rfl

theorem Moves.timebaseLoRead : Moves s s.timebaseLoRead.2 :=
  Moves.withHost (fun h => { h with timebaseLatch := s.park.timebase.extractLsb' 16 16 }) rfl rfl rfl rfl

theorem Moves.intEnableWrite (v : Word) : Moves s (s.intEnableWrite v) := Moves.withHost _ rfl rfl rfl rfl

theorem Moves.argWrite (i : Fin 4) (v : Word) : Moves s (s.argWrite i v) := Moves.withHost _ rfl rfl rfl rfl

theorem Leads.registerWrite (offset : BitVec 7) (v : Word) : Leads s (s.registerWrite offset v) := by
  unfold State.registerWrite
  split
  · exact (Moves.controlWrite v).leads
  · exact (Moves.linkConfigWrite _ v).leads
  · exact (Moves.linkConfigWrite _ v).leads
  · exact (Moves.intEnableWrite v).leads
  · exact (Moves.hostFaultWrite v).leads
  · exact Leads.command _
  · exact (Moves.argWrite _ v).leads
  · exact (Moves.argWrite _ v).leads
  · exact (Moves.argWrite _ v).leads
  · exact (Moves.argWrite _ v).leads
  · exact (Moves.slotSelectWrite v).leads
  · exact (Moves.stationSelectWrite v).leads
  · exact (Moves.stageSlotWrite v).leads
  · exact (Moves.stageOffsetWrite v).leads
  · exact (Moves.stageDataWrite v).leads
  · exact Moves.eventPop.leads
  · exact (Moves.refl s).leads

/-! ### Every row -/

/-- A row that is not taken changes nothing (R168). -/
theorem Leads.taken {f : State → State} (h : Leads s (f s)) : Leads s (s.taken f) := by
  unfold State.taken
  split
  · exact (Moves.refl s).leads
  · exact h

theorem Moves.hostRead {f : State → Word × State} (h : Moves s (f s).2) : Moves s (s.hostRead f) := by
  unfold State.hostRead
  split
  · exact Moves.withHost _ rfl rfl rfl rfl
  · exact h.trans (Moves.withHost _ rfl rfl rfl rfl)

theorem Leads.receive {f : Frame} {together : Bool} {phase : State → State}
    (h : f.body.payload.length ≤ 64 → ∀ u, Moves u (phase u)) :
    Leads s (s.taken (·.receive f together phase)) := Leads.taken (Moves.receive h).leads

theorem Leads.sent {kind : FrameKind} {g : State → Frame → State} (h : ∀ s f, Moves s (g s f)) :
    Leads s (s.taken (·.sent kind g)) := Leads.taken (Moves.sent (h s)).leads

theorem exec_leads (h : exec i s = .next t) : Leads s t := by
  cases i <;> obtain rfl := Host.Outcome.next.inj h
  case claim => exact Leads.taken Leads.claim
  case issue => exact Leads.taken (Moves.onSlot fun _ => Moves.issueSlot).leads
  case abort => exact Leads.taken (Moves.onSlot fun _ => Moves.abortSlot).leads
  case release => exact Leads.taken (Moves.onSlot fun _ => Moves.releaseSlot).leads
  case stationOn => exact Leads.taken (Moves.onStation fun _ => Moves.stationOn).leads
  case stationOff => exact Leads.taken (Moves.onStation fun _ => Moves.stationOff).leads
  case stationConfig => exact Leads.taken (Moves.onStation fun _ => Moves.stationConfig).leads
  case linkReset => exact Leads.taken Moves.linkReset.leads
  case pollNow => exact Leads.taken Moves.pollNow.leads
  case softReset => exact Leads.taken Leads.softReset
  case unknownCommandCode code => exact Leads.taken (Leads.command code)
  case linkEnableWrite v => exact Leads.taken (Moves.controlWrite v).leads
  case pollAlwaysWrite v => exact Leads.taken (Moves.controlWrite v).leads
  case linkConfigWrite second v => exact Leads.taken (Moves.linkConfigWrite second v).leads
  case intEnableWrite v => exact Leads.taken (Moves.intEnableWrite v).leads
  case hostFaultClear v => exact Leads.taken (Moves.hostFaultWrite v).leads
  case stageSlotWrite v => exact Leads.taken (Moves.stageSlotWrite v).leads
  case stageOffsetWrite v => exact Leads.taken (Moves.stageOffsetWrite v).leads
  case stageDataRead => exact (Moves.hostRead Moves.stageDataRead).leads
  case stageDataWrite v => exact Leads.taken (Moves.stageDataWrite v).leads
  case event0Read => exact (Moves.hostRead (Move.snapshot _).moves).leads
  case eventPop v => exact Leads.taken Moves.eventPop.leads
  case slotSelectWrite v => exact Leads.taken (Moves.slotSelectWrite v).leads
  case slotView0Read => exact (Moves.hostRead Moves.slotView0Read).leads
  case stationSelectWrite v => exact Leads.taken (Moves.stationSelectWrite v).leads
  case stationView0Read => exact (Moves.hostRead Moves.stationView0Read).leads
  case timebaseLoRead => exact (Moves.hostRead Moves.timebaseLoRead).leads
  case registerWrite offset v => exact Leads.taken (Leads.registerWrite offset v)
  case resetAssert => exact .moves (.hardwareReset true s.host.rateStrap .idle (by simp)) (Moves.refl _)
  case resetRelease strap => exact .moves (.hardwareReset false strap .resetBreak (by simp)) (Moves.refl _)
  case timebaseAdvance => exact Leads.taken .advance
  case deadlineExpiry => exact Leads.taken Moves.expireHead.leads
  case pollIntervalExpiry => exact Leads.taken (Moves.leads (Moves.pollTimerExpires.trans Moves.choose))
  case replyTimerExpiry => exact Leads.taken Moves.replyTimeout.leads
  case replySlotTimeout => exact Leads.taken Moves.replySlotTimeout.leads
  case linkResetBreakEnd => exact Leads.taken Moves.breakEnds.leads
  case linkResetEnd => exact Leads.taken Moves.linkResetEnds.leads
  case frameDamaged bytes => exact Leads.taken Moves.receiveBytes.leads
  case acceptReceived f => exact Leads.receive fun _ _ => Moves.inOperation fun _ h => Moves.normalAccept h
  case refuseReceived f => exact Leads.receive fun _ _ => Moves.takeRefuse
  case deferReceived f => exact Leads.receive fun _ _ => Moves.inOperation fun _ h => Moves.normalDefer h
  case closeReceived f => exact Leads.receive fun _ _ => Moves.takeClose
  case ackReceived f => exact Leads.receive fun _ _ => Moves.inOperation fun _ h => Moves.normalAck h
  case dataReceived f => exact Leads.receive fun hlen _ => Moves.inOperation fun _ h => Moves.normalData h hlen
  case replyReceived f => exact Leads.receive fun _ _ => Moves.takeReply
  case headOnlyKindReceived kind f =>
    exact Leads.receive fun _ _ => Moves.inOperation fun _ h => Moves.protocolError (State.conducts_of_carried h)
  case callSent => exact Leads.sent fun _ f => Moves.passTo f
  case resumeSent => exact Leads.sent fun _ f => Moves.passTo f
  case dataFrameSent => exact Leads.sent fun _ f => Moves.dataSent f
  case ackFrameSent => exact Leads.sent fun _ f => Moves.passTo f
  case abortFrameSent => exact Leads.sent fun _ f => Moves.passTo f
  case parkedSent => exact Leads.sent fun _ f => Moves.parkedDone f
  case pollSent => exact Leads.sent fun _ f => Moves.pollDone f

/-- A step takes a command off the queue, and leads on from there. -/
theorem step_leads (h : step s = .next t) : ∃ q, Leads { s with pending := q } t := by
  unfold step at h
  split at h
  · exact ⟨s.pending, Host.Outcome.next.inj h ▸ (Moves.refl s).leads⟩
  · exact ⟨_, exec_leads h⟩

end Sys2Proof.Machine
end

section
/-!
PROOF. The invariants of registers, slot records, pages and events, move by move.
-/
set_option Elab.async false

namespace Sys2Proof.Machine

variable {s t u : State} {n m : SlotNo} {x y : Exchange} {a : StationNo}

/-- What the advance of the timebase alone, every start and every move keeps, every step keeps. -/
theorem step_keeps {P : State → Prop} (hpending : ∀ s q, P s → P { s with pending := q }) (htick : ∀ s, P s → P s.tick)
    (hstart : ∀ s t, Start s t → P s → P t) (hmove : ∀ s t, Move s t → P s → P t) (hs : P s)
    (h : step s = .next t) : P t := by
  obtain ⟨q, hleads⟩ := step_leads h
  obtain ⟨u, hu, hmoves⟩ := hleads.begins
  have hP : P u := by
    rcases hu with hu | rfl
    · exact hstart _ _ hu (hpending s q hs)
    · exact htick _ (hpending s q hs)
  clear h hleads
  induction hmoves with
  | refl => exact hP
  | tail _ hlast ih => exact hmove _ _ hlast ih

theorem slot_set_self {v : Vector (Option Exchange) 32} {o : Option Exchange} : (v.set n o)[n] = o :=
  Vector.getElem_set_self n.isLt

theorem slot_set_ne {v : Vector (Option Exchange) 32} {o : Option Exchange} (h : m ≠ n) : (v.set n o)[m] = v[m] :=
  Vector.getElem_set_ne n.isLt m.isLt fun e => h (Fin.ext e.symm)

theorem State.softReset_slot (n : SlotNo) : s.softReset.slots[n] = none := Vector.getElem_replicate n.isLt

theorem State.hardwareReset_slot {held : Bool} {strap : BitVec 2} {op : LinkOp} (n : SlotNo) :
    (s.hardwareReset held strap op).slots[n] = none := Vector.getElem_replicate n.isLt

theorem State.softReset_station (a : StationNo) : s.softReset.stations[a] = s.stations[a].atSoftReset := by
  simp only [State.softReset, Fin.getElem_fin, Vector.getElem_map]

theorem State.hardwareReset_station {held : Bool} {strap : BitVec 2} {op : LinkOp} (a : StationNo) :
    (s.hardwareReset held strap op).stations[a] = Station.atReset := Vector.getElem_replicate a.isLt

/-! ### Popping a record -/

/-- A pop clears event unread of the slot it names and changes no slot otherwise. -/
theorem State.clearSource_slot_cases (src : Source) (m : SlotNo) :
    (s.clearSource src).slots[m] = s.slots[m] ∨
      (src = .slot m ∧ (s.clearSource src).slots[m] = s.slots[m].map Exchange.seen) := by
  cases src with
  | slot n =>
    by_cases h : m = n
    · subst h
      exact .inr ⟨rfl, slot_set_self⟩
    · exact .inl (slot_set_ne h)
  | station a => exact .inl rfl
  | link => exact .inl rfl

theorem State.clearSource_station_cases (src : Source) (b : StationNo) :
    (s.clearSource src).stations[b] = s.stations[b] ∨
      (src = .station b ∧ (s.clearSource src).stations[b] = { s.stations[b] with attention := false }) := by
  cases src with
  | slot n => exact .inl rfl
  | station a =>
    by_cases h : b = a
    · subst h
      exact .inr ⟨rfl, Vector.getElem_set_self b.isLt⟩
    · exact .inl (Vector.getElem_set_ne a.isLt b.isLt fun e => h (Fin.ext e.symm))
  | link => exact .inl rfl

/-! ### Registers and stage memory (O51) -/

theorem State.report_repeats {src : Source} {k : EventKind} {d : Detail}
    (h : ∀ r ∈ s.events.records, r.repeats ≤ 255) : ∀ r ∈ (s.report src k d).events.records, r.repeats ≤ 255 := by
  intro r hr
  unfold State.report at hr
  split at hr
  · obtain ⟨q, hq, rfl⟩ := List.mem_map.mp hr
    have hle := h q hq
    split
    · simp only [EventRecord.fold]
      split <;> omega
    · exact hle
  · rcases List.mem_append.mp hr with hr | hr
    · exact h r hr
    · obtain rfl := List.mem_singleton.mp hr
      exact Nat.zero_le 255

theorem Move.keeps_registersInRange (hmove : Move s t) (h : s.registersInRange) : t.registersInRange := by
  obtain ⟨hreply, hpoll, hoffset, hfault, hfair, hlow, hhigh, hstations, hrecords⟩ := h
  cases hmove with
  | host g hg =>
    exact ⟨hg.replyTime hreply, hg.pollInterval hpoll, hg.stageOffset hoffset, hg.hostFault hfault, hfair, hlow, hhigh,
      hstations, hrecords⟩
  | arb g hg =>
    obtain ⟨hfair', hlow', hhigh'⟩ := hg ⟨hreply, hpoll, hoffset, hfault, hfair, hlow, hhigh, hstations, hrecords⟩
    exact ⟨hreply, hpoll, hoffset, hfault, hfair', hlow', hhigh', hstations, hrecords⟩
  | stations v hr =>
    exact ⟨hreply, hpoll, hoffset, hfault, hfair, hlow, hhigh, fun a => hr a (hstations a), hrecords⟩
  | report src k d =>
    refine ⟨?_, ?_, ?_, ?_, ?_, ?_, ?_, ?_, State.report_repeats hrecords⟩
    all_goals simp only [State.report_host, State.report_arb, State.report_stations]; assumption
  | done n x y r hx hnot hy hchain hparams hsrc hrep =>
    refine ⟨hreply, hpoll, hoffset, hfault, hfair, hlow, hhigh, hstations, fun q hq => ?_⟩
    rcases List.mem_append.mp hq with hq | hq
    · exact hrecords q hq
    · obtain rfl := List.mem_singleton.mp hq
      omega
  | pop r rest hrest =>
    have hrest' : ∀ q ∈ rest, q.repeats ≤ 255 := fun q hq => hrecords q (hrest ▸ List.mem_cons_of_mem r hq)
    rw [State.eventPop_of_cons s hrest]
    have hstations' (b : StationNo) : ((s.popped rest).clearSource r.source).stations[b].inRange := by
      rcases State.clearSource_station_cases (s := s.popped rest) r.source b with e | ⟨-, e⟩
      · rw [e]; exact hstations b
      · rw [e]; exact hstations b
    refine ⟨?_, ?_, ?_, ?_, ?_, ?_, ?_, hstations', by rw [State.clearSource_events]; exact hrest'⟩
    all_goals rw [State.clearSource_frame]; assumption
  | _ => exact ⟨hreply, hpoll, hoffset, hfault, hfair, hlow, hhigh, hstations, hrecords⟩

theorem Move.keeps_memWf (hmove : Move s t) (h : Memory.wf s.stage.mem) : Memory.wf t.stage.mem := by
  cases hmove with
  | report src k d => rw [State.report_stage]; exact h
  | pages g hm => exact hm ▸ h
  | store n x y m hx hst hy hchain hr hm => exact hm h
  | fill n x y p rest bytes => exact Memory.fillPage_wf _ _ _ h
  | pop r rest hrest =>
    rw [State.eventPop_of_cons s hrest]
    cases r.source <;> exact h
  | _ => exact h

theorem Start.keeps_registersInRange (hstart : Start s t) (h : s.registersInRange) : t.registersInRange := by
  cases hstart with
  | softReset =>
    obtain ⟨hreply, hpoll, -, -, -, -, -, hstations, -⟩ := h
    refine ⟨hreply, hpoll, rfl, rfl, Nat.zero_le 4, hpoll, Nat.le_of_lt_succ (BitVec.isLt _), fun a => ?_,
      fun _ h => absurd h List.not_mem_nil⟩
    rw [State.softReset_station]
    exact ⟨Nat.zero_le 3, (hstations a).2⟩
  | hardwareReset held strap op =>
    obtain ⟨hreply, hpoll, hoffset, hfault, hfair, hlow, hhigh, -, -⟩ := reset_registersInRange
    refine ⟨hreply, hpoll, hoffset, hfault, hfair, hlow, hhigh, fun a => ?_, fun _ h => absurd h List.not_mem_nil⟩
    rw [State.hardwareReset_station]
    decide
  | _ => exact h

theorem Start.keeps_memWf (hstart : Start s t) (h : Memory.wf s.stage.mem) : Memory.wf t.stage.mem := by
  cases hstart with
  | claimed n g => exact StageMem.takeZeroed_wf _ _ h
  | _ => exact h

/-- Settles O51, move by move. -/
theorem registersStayInRange : Obligations.RegistersStayInRange := by
  intro s t hreg hwf hstep
  exact step_keeps (P := fun s => s.registersInRange ∧ Memory.wf s.stage.mem) (fun _ _ h => h) (fun _ h => h)
    (fun _ _ hstart h => ⟨hstart.keeps_registersInRange h.1, hstart.keeps_memWf h.2⟩)
    (fun _ _ hmove h => ⟨hmove.keeps_registersInRange h.1, hmove.keeps_memWf h.2⟩) ⟨hreg, hwf⟩ hstep

/-! ### Slot records (O52) -/

/-- Slot records depend on the slots and the link alone. -/
theorem State.slotsInRange_of_same (hslots : t.slots = s.slots) (hlink : t.link = s.link) (h : s.slotsInRange) :
    t.slotsInRange := by
  obtain ⟨hrange, hfits⟩ := h
  refine ⟨by rw [hslots]; exact hrange, ?_⟩
  rw [State.connectionFits, hslots, hlink]
  exact hfits

theorem Exchange.inRange_seen (h : x.inRange = true) : x.seen.inRange = true := by
  obtain ⟨hcount, hdone, hareas, hres, hbusy, hread⟩ := Exchange.inRange_iff.mp h
  unfold Exchange.seen
  split
  · next hst =>
    rw [hst] at hres hbusy
    exact Exchange.inRange_iff.mpr ⟨hcount, hdone, hareas, hres, hbusy, fun _ hoff => nomatch hoff⟩
  · exact h

theorem Exchange.seen_data (x : Exchange) :
    x.seen.op = x.op ∧ x.seen.count = x.count ∧ x.seen.doneCount = x.doneCount ∧ x.seen.chain = x.chain ∧
      x.seen.params = x.params := by
  unfold Exchange.seen
  split <;> exact ⟨rfl, rfl, rfl, rfl, rfl⟩

theorem State.clearSource_slotsInRange (src : Source) (h : s.slotsInRange) : (s.clearSource src).slotsInRange := by
  cases src with
  | slot n =>
    cases hx : s.slots[n] with
    | none =>
      have hself : s.slots.set n none = s.slots := by rw [← hx]; exact Vector.set_get s.slots n
      exact State.slotsInRange_of_same (s := s)
        (by simp only [State.clearSource, State.setSlot, hx, Option.map_none, hself]) rfl h
    | some x =>
      obtain ⟨hop, hcount, hdone, -, -⟩ := x.seen_data
      simp only [State.clearSource, hx, Option.map_some]
      exact State.slotsInRange_set hx Exchange.inRange_seen hop hcount hdone h
  | station a => exact h
  | link => exact h

theorem State.slotsInRange_free (h : s.slotsInRange) :
    ({ s with slots := s.slots.set n none } : State).slotsInRange := by
  refine ⟨fun m z hz => ?_, State.connectionFits_iff.mpr fun c z hc hz hread hb => ?_⟩
  · rcases slots_set_some hz with ⟨-, e⟩ | ⟨-, e⟩
    · cases e
    · exact h.1 m z e
  · rcases slots_set_some hz with ⟨-, e⟩ | ⟨-, e⟩
    · cases e
    · exact State.connectionFits_iff.mp h.2 c z hc e hread hb

theorem Move.keeps_slotsInRange (hmove : Move s t) (h : s.slotsInRange) : t.slotsInRange := by
  cases hmove with
  | link l hl => exact ⟨h.1, hl h⟩
  | report src k d => exact State.slotsInRange_of_same (State.report_slots _ _ _ _) (State.report_link _ _ _ _) h
  | park n x y g d own hx hxy hoff hy hown hhigh hlow hr => exact hr h
  | record n x y op hx hxy hd hr => exact hr h
  | store n x y m hx hst hy hchain hr => exact hr h
  | fill n x y p rest bytes op hx hst hy hchain hparams hp hr => exact hr h
  | done n x y r hx hnot hy hchain hparams hsrc hrep hd hr => exact hr h
  | pop r rest hrest =>
    rw [State.eventPop_of_cons s hrest]
    exact State.clearSource_slotsInRange _ h
  | release n x => exact State.slotsInRange_free h
  | _ => exact h

theorem claimedExchange_inRange {g : ClaimArgs} {chain : List Page} (hcount : countInRange g.op g.count = true)
    (hlen : chain.length = pagesClaimed g) : (claimedExchange g chain).inRange = true := by
  refine Exchange.inRange_iff.mpr ⟨hcount, Nat.zero_le _, ?_, Nat.zero_le 8, Nat.zero_lt_succ 7, fun _ _ => rfl⟩
  unfold pagesClaimed at hlen
  cases hop : g.op <;> simp_all [Exchange.areasFit, claimedExchange, frames]

theorem Start.keeps_slotsInRange (hstart : Start s t) (h : s.slotsInRange) : t.slotsInRange := by
  cases hstart with
  | claimed n g hn hlen hcount =>
    refine ⟨fun m z hz => ?_, State.connectionFits_iff.mpr fun c z hc hz hread hb => ?_⟩
    · rcases slots_set_some hz with ⟨-, e⟩ | ⟨-, e⟩
      · obtain rfl := Option.some.inj e
        exact claimedExchange_inRange hcount (List.length_take_of_le hlen)
      · exact h.1 m z e
    · rcases slots_set_some hz with ⟨-, e⟩ | ⟨-, e⟩
      · obtain rfl := Option.some.inj e
        rfl
      · exact State.connectionFits_iff.mp h.2 c z hc e hread hb
  | softReset =>
    refine ⟨fun m z hz => ?_, rfl⟩
    rw [State.softReset_slot] at hz
    cases hz
  | hardwareReset held strap op hop =>
    refine ⟨fun m z hz => ?_, State.connectionFits_iff.mpr fun c z hc => absurd hc (hop c)⟩
    rw [State.hardwareReset_slot] at hz
    cases hz
  | _ => exact h

/-- Settles O52, move by move. -/
theorem slotRecordsStayInRange : Obligations.SlotRecordsStayInRange := by
  intro s t hslots hstep
  exact step_keeps (P := fun s => s.slotsInRange) (fun _ _ h => h) (fun _ h => h) (fun _ _ hstart => hstart.keeps_slotsInRange)
    (fun _ _ hmove => hmove.keeps_slotsInRange) hslots hstep

/-! ### Pages (O53) -/

theorem State.chainOf_some (hx : s.slots[n] = some x) : s.chainOf n = x.chain := by simp only [State.chainOf, hx]

theorem State.chainOf_none (hx : s.slots[n] = none) : s.chainOf n = [] := by simp only [State.chainOf, hx]

theorem State.chainOf_congr (h : t.slots[n] = s.slots[n]) : t.chainOf n = s.chainOf n := by simp only [State.chainOf, h]

/-- A state in which one slot's chain, the free list and the reservation list hold the same pages together as before. -/
theorem State.pagesConserved_of_count (n : SlotNo) (hothers : ∀ m ≠ n, t.chainOf m = s.chainOf m)
    (hcount : ∀ p : Page, t.stage.free.count p + t.stage.reserved.count p + (t.chainOf n).count p =
      s.stage.free.count p + s.stage.reserved.count p + (s.chainOf n).count p) (h : s.pagesConserved) :
    t.pagesConserved := by
  obtain ⟨before, after, hsplit⟩ := List.append_of_mem (List.mem_finRange n)
  have hnodup : (before ++ n :: after).Nodup := hsplit ▸ List.nodup_finRange 32
  have hsame (l : List SlotNo) (hl : n ∉ l) : l.flatMap t.chainOf = l.flatMap s.chainOf :=
    List.flatMap_congr fun m hm => hothers m fun e => hl (e ▸ hm)
  have hbefore := hsame before fun hn => List.disjoint_of_nodup_append hnodup hn List.mem_cons_self
  have hafter := hsame after (List.nodup_cons.mp (List.nodup_append.mp hnodup).2.1).1
  refine List.Perm.trans (List.perm_iff_count.mpr fun p => ?_) h
  simp only [State.allPages, hsplit, List.flatMap_append, List.flatMap_cons, hbefore, hafter, List.count_append]
  have := hcount p
  omega

theorem State.pagesConserved_of_same (hslots : t.slots = s.slots) (hstage : t.stage = s.stage) (h : s.pagesConserved) :
    t.pagesConserved := by
  have hchain : t.chainOf = s.chainOf := funext fun n => State.chainOf_congr (by rw [hslots])
  rw [State.pagesConserved, State.allPages, hchain, hstage]
  exact h

/-- A slot record that keeps its chain keeps every page in its place. -/
theorem State.pagesConserved_set (hx : s.slots[n] = some x) (hslots : t.slots = s.slots.set n (some y))
    (hchain : y.chain = x.chain) (hfree : t.stage.free = s.stage.free) (hreserved : t.stage.reserved = s.stage.reserved)
    (h : s.pagesConserved) : t.pagesConserved := by
  refine State.pagesConserved_of_count n (fun m hm => State.chainOf_congr ?_) (fun p => ?_) h
  · rw [hslots]
    exact slot_set_ne hm
  · have hy : t.slots[n] = some y := by rw [hslots]; exact slot_set_self
    rw [State.chainOf_some hy, State.chainOf_some hx, hchain, hfree, hreserved]

theorem Move.keeps_pagesConserved (hmove : Move s t) (h : s.pagesConserved) : t.pagesConserved := by
  cases hmove with
  | report src k d => exact State.pagesConserved_of_same (State.report_slots _ _ _ _) (State.report_stage _ _ _ _) h
  | park n x y g d own hx hxy => exact State.pagesConserved_set hx rfl hxy.chain rfl rfl h
  | pages g hm hp =>
    refine State.pagesConserved_of_count (s := s) 0 (fun _ _ => rfl) (fun p => ?_) h
    have hcount := List.perm_iff_count.mp hp p
    simp only [List.count_append] at hcount
    exact congrArg (· + (s.chainOf 0).count p) hcount
  | record n x y op hx hxy => exact State.pagesConserved_set hx rfl hxy.chain rfl rfl h
  | store n x y m hx hst hy hchain => exact State.pagesConserved_set hx rfl hchain rfl rfl h
  | fill n x y p rest bytes op hx hst hy hchain hparams hp =>
    refine State.pagesConserved_of_count n (fun m hm => State.chainOf_congr (slot_set_ne hm)) (fun q => ?_) h
    rw [State.chainOf_some hx, State.chainOf_some slot_set_self, hchain, hp]
    simp only [List.count_append, List.count_cons, List.count_nil]
    omega
  | done n x y r hx hnot hy hchain => exact State.pagesConserved_set hx rfl hchain rfl rfl h
  | pop r rest hrest =>
    rw [State.eventPop_of_cons s hrest]
    cases r.source with
    | slot n =>
      cases hx : s.slots[n] with
      | none =>
        have hself : s.slots.set n none = s.slots := by rw [← hx]; exact Vector.set_get s.slots n
        refine State.pagesConserved_of_same (s := s) ?_ rfl h
        simp only [State.clearSource, State.setSlot, State.popped, State.withEvents, hx, Option.map_none, hself]
      | some x =>
        obtain ⟨-, -, -, hchain, -⟩ := x.seen_data
        refine State.pagesConserved_set (s := s) hx ?_ hchain rfl rfl h
        simp only [State.clearSource, State.setSlot, State.popped, State.withEvents, hx, Option.map_some]
    | station a => exact h
    | link => exact h
  | release n x hx =>
    refine State.pagesConserved_of_count n (fun m hm => State.chainOf_congr (slot_set_ne hm)) (fun q => ?_) h
    rw [State.chainOf_some hx, State.chainOf_none slot_set_self]
    simp only [StageMem.returnChain, List.count_append, List.count_reverse, List.count_nil]
    omega
  | _ => exact h

theorem State.pagesConserved_of_free (hslots : ∀ n : SlotNo, t.slots[n] = none) (hfree : t.stage.free = freeListAtReset)
    (hreserved : t.stage.reserved = []) : t.pagesConserved := by
  have hflat : (List.finRange 32).flatMap t.chainOf = [] :=
    List.flatMap_eq_nil_iff.mpr fun n _ => State.chainOf_none (hslots n)
  rw [State.pagesConserved, State.allPages, hflat, hfree, hreserved, List.append_nil, List.append_nil]
  exact List.Perm.refl _

theorem State.softReset_pagesConserved : s.softReset.pagesConserved :=
  State.pagesConserved_of_free (fun n => State.softReset_slot n) (by simp only [State.softReset])
    (by simp only [State.softReset])

theorem State.hardwareReset_pagesConserved {held : Bool} {strap : BitVec 2} {op : LinkOp} :
    (s.hardwareReset held strap op).pagesConserved :=
  State.pagesConserved_of_free (fun n => State.hardwareReset_slot n) (by simp only [State.hardwareReset])
    (by simp only [State.hardwareReset])

theorem Start.keeps_pagesConserved (hstart : Start s t) (h : s.pagesConserved) : t.pagesConserved := by
  cases hstart with
  | claimed n g hn =>
    refine State.pagesConserved_of_count (s := s) n (fun m hm => State.chainOf_congr (slot_set_ne hm)) (fun q => ?_) h
    have hsplit : s.stage.free.count q =
        (s.stage.free.take (pagesClaimed g)).count q + (s.stage.free.drop (pagesClaimed g)).count q := by
      rw [← List.count_append, List.take_append_drop]
    rw [State.chainOf_none hn, State.chainOf_some (s := s.claimed n g) slot_set_self]
    simp only [State.claimed, State.setSlot, State.withStage, StageMem.takeZeroed, claimedExchange, List.count_nil]
    omega
  | softReset => exact State.softReset_pagesConserved
  | hardwareReset held strap op => exact State.hardwareReset_pagesConserved
  | _ => exact h

/-- Settles O53, move by move. -/
theorem pagesAreConserved : Obligations.PagesAreConserved := by
  intro s t hpages hstep
  exact step_keeps (P := fun s => s.pagesConserved) (fun _ _ h => h) (fun _ h => h) (fun _ _ hstart => hstart.keeps_pagesConserved)
    (fun _ _ hmove => hmove.keeps_pagesConserved) hpages hstep

end Sys2Proof.Machine
end

section
/-!
PROOF. The invariant of the event queue, and the data of issued exchanges, move by move.
-/
set_option Elab.async false

namespace Sys2Proof.Machine

variable {s t u : State} {n m : SlotNo} {x y : Exchange} {a : StationNo} {src : Source}

/-! ### Events (O55) -/

theorem State.unread_some (hx : s.slots[n] = some x) : s.unread n = x.st.isUnread := by simp only [State.unread, hx]

theorem State.unread_none (hx : s.slots[n] = none) : s.unread n = false := by simp only [State.unread, hx]

theorem State.unread_congr (h : t.slots[n] = s.slots[n]) : t.unread n = s.unread n := by simp only [State.unread, h]

theorem SlotState.isUnread_of_not_done {st : SlotState} (h : st.isDone = false) : st.isUnread = false := by
  cases st <;> simp_all [SlotState.isDone, SlotState.isUnread]

theorem Exchange.isUnread_of_connectedRead (h : x.isConnectedRead = true) : x.st.isUnread = false := by
  unfold Exchange.isConnectedRead at h
  split at h
  · next hst => rw [hst]; rfl
  · cases h

theorem State.hasRecord_congr (h : t.events.records.map EventRecord.source = s.events.records.map EventRecord.source) :
    t.hasRecord src = s.hasRecord src := by
  have hmem (v : State) : v.hasRecord src = true ↔ src ∈ v.events.records.map EventRecord.source := by
    rw [State.hasRecord_iff, List.mem_map]
  rw [Bool.eq_iff_iff, hmem, hmem, h]

/-- The event queue and the marks depend on the sources of the records, the slots and the station records alone. -/
theorem State.eventsFit_of_same (hsources : t.events.records.map EventRecord.source = s.events.records.map EventRecord.source)
    (hslots : ∀ n, t.unread n = s.unread n)
    (hstations : ∀ a : StationNo, t.stations[a].attention = true →
      s.stations[a].attention = true ∨ s.hasRecord (.station a) = true)
    (h : s.eventsFit) : t.eventsFit := by
  obtain ⟨hnodup, hunread, hattention⟩ := h
  refine ⟨hsources ▸ hnodup, fun n => ?_, fun a ha => ?_⟩
  · rw [State.hasRecord_congr hsources, hunread n, hslots n]
  · rw [State.hasRecord_congr hsources]
    exact (hstations a ha).elim (hattention a) id

/-- A slot record that is not unread and stays so. -/
theorem State.unread_set (hx : s.unread n = false) (hslots : t.slots = s.slots.set n (some y)) (hy : y.st.isUnread = false)
    (m : SlotNo) : t.unread m = s.unread m := by
  by_cases h : m = n
  · subst h
    have hget : t.slots[m] = some y := by rw [hslots]; exact slot_set_self
    rw [State.unread_some hget, hy, hx]
  · exact State.unread_congr (by rw [hslots]; exact slot_set_ne h)

theorem State.eventsFit_report {k : EventKind} {d : Detail} (hsrc : ∀ n, src ≠ .slot n) (h : s.eventsFit) :
    (s.report src k d).eventsFit := by
  have hunread (n : SlotNo) : (s.report src k d).unread n = s.unread n :=
    State.unread_congr (by rw [State.report_slots])
  by_cases hwait : s.hasRecord src = true
  · refine State.eventsFit_of_same ?_ hunread (fun a ha => .inl (by rwa [State.report_stations] at ha)) h
    rw [s.report_of_waiting src k d hwait]
    simp only [State.withEvents, List.map_map]
    refine List.map_congr_left fun r _ => ?_
    simp only [Function.comp]
    split <;> simp only [EventRecord.fold_source]
  · obtain ⟨hnodup, hmarks, hattention⟩ := h
    have hnew := s.report_of_new src k d (Bool.eq_false_of_not_eq_true hwait)
    have hrecord (other : Source) :
        (s.report src k d).hasRecord other = true ↔ s.hasRecord other = true ∨ src = other := by
      rw [State.hasRecord_iff, State.hasRecord_iff, hnew]
      simp only [State.post, State.withEvents, List.mem_append, List.mem_singleton, or_and_right, exists_or,
        exists_eq_left]
    refine ⟨?_, fun n => ?_, fun a ha => ?_⟩
    · rw [hnew]
      simp only [State.post, State.withEvents, List.map_append, List.map_cons, List.map_nil]
      refine List.nodup_append.mpr ⟨hnodup, List.nodup_singleton _, fun p hp q hq e => hwait ?_⟩
      obtain ⟨r, hr, rfl⟩ := List.mem_map.mp hp
      exact (s.hasRecord_iff src).mpr ⟨r, hr, e.trans (List.mem_singleton.mp hq)⟩
    · rw [hunread n, ← hmarks n, Bool.eq_iff_iff, hrecord]
      exact or_iff_left (hsrc n)
    · rw [State.report_stations] at ha
      exact (hrecord _).mpr (.inl (hattention a ha))

theorem State.eventsFit_done {r : EventRecord} (hx : s.slots[n] = some x) (hnot : x.st.isDone = false)
    (hy : y.st.isUnread = true) (hsrc : r.source = .slot n) (h : s.eventsFit) :
    ({ s with
      slots := s.slots.set n (some y), events := { s.events with records := s.events.records ++ [r] } } : State).eventsFit := by
  obtain ⟨hnodup, hmarks, hattention⟩ := h
  have hnone : s.hasRecord (.slot n) = false := by
    rw [hmarks n, State.unread_some hx, SlotState.isUnread_of_not_done hnot]
  have hrecord (other : Source) : ({ s with
      slots := s.slots.set n (some y), events := { s.events with records := s.events.records ++ [r] } } :
        State).hasRecord other = true ↔ s.hasRecord other = true ∨ Source.slot n = other := by
    rw [State.hasRecord_iff, State.hasRecord_iff]
    simp only [List.mem_append, List.mem_singleton, or_and_right, exists_or, exists_eq_left, hsrc]
  refine ⟨?_, fun m => ?_, fun a ha => (hrecord _).mpr (.inl (hattention a ha))⟩
  · simp only [List.map_append, List.map_cons, List.map_nil, hsrc]
    refine List.nodup_append.mpr ⟨hnodup, List.nodup_singleton _, fun p hp q hq e => ?_⟩
    obtain ⟨r', hr', rfl⟩ := List.mem_map.mp hp
    refine absurd ((s.hasRecord_iff (.slot n)).mpr ⟨r', hr', e.trans (List.mem_singleton.mp hq)⟩) ?_
    simp [hnone]
  · by_cases hm : m = n
    · subst hm
      rw [State.unread_some slot_set_self, hy]
      exact (hrecord _).mpr (.inr rfl)
    · rw [State.unread_congr (s := s) (slot_set_ne hm), ← hmarks m, Bool.eq_iff_iff, hrecord]
      exact or_iff_left fun e => hm (Source.slot.inj e).symm

theorem Exchange.seen_isUnread (x : Exchange) : x.seen.st.isUnread = false := by
  unfold Exchange.seen
  split
  · rfl
  · next hno =>
    cases hst : x.st with
    | done f st u res => exact absurd hst (hno f st u res)
    | _ => rfl

theorem State.eventsFit_pop {r : EventRecord} {rest : List EventRecord} (hrest : s.events.records = r :: rest)
    (h : s.eventsFit) : s.eventPop.eventsFit := by
  obtain ⟨hnodup, hmarks, hattention⟩ := h
  have habsent := State.eventPop_source_absent hrest hnodup
  have hrecords : s.eventPop.events.records = rest := by rw [State.eventPop_events hrest]
  have hrecord (other : Source) (hne : other ≠ r.source) : s.eventPop.hasRecord other = s.hasRecord other := by
    rw [Bool.eq_iff_iff, State.hasRecord_iff, State.hasRecord_iff, hrecords, hrest]
    simp only [List.mem_cons, or_and_right, exists_or, exists_eq_left]
    exact (or_iff_right fun e => hne e.symm).symm
  have hgone : s.eventPop.hasRecord r.source = false := by
    refine Bool.eq_false_of_not_eq_true fun e => ?_
    obtain ⟨q, hq, hsrc⟩ := (State.hasRecord_iff _ _).mp e
    exact habsent q hq hsrc
  rw [hrest, List.map_cons, List.nodup_cons] at hnodup
  refine ⟨by rw [hrecords]; exact hnodup.2, fun n => ?_, fun a ha => ?_⟩
  · by_cases hn : r.source = .slot n
    · rw [← hn, hgone, State.eventPop_of_slot hrest hn]
      cases hx : s.slots[n] with
      | none => rw [State.unread_none slot_set_self]
      | some x => rw [State.unread_some (x := x.seen) slot_set_self, x.seen_isUnread]
    · rw [hrecord _ (Ne.symm hn), hmarks n, State.eventPop_of_cons s hrest]
      rcases State.clearSource_slot_cases (s := s.popped rest) r.source n with e | ⟨e, -⟩
      · exact (State.unread_congr e).symm
      · exact absurd e hn
  · have hold : r.source ≠ .station a ∧ s.stations[a].attention = true := by
      rw [State.eventPop_of_cons s hrest] at ha
      cases hsrc : r.source with
      | slot n => rw [hsrc] at ha; exact ⟨nofun, ha⟩
      | link => rw [hsrc] at ha; exact ⟨nofun, ha⟩
      | station b =>
        rw [hsrc] at ha
        rcases State.clearSource_station_cases (s := s.popped rest) (.station b) a with e | ⟨-, e⟩
        · by_cases hb : b = a
          · subst hb
            have hget : ((s.popped rest).clearSource (.station b)).stations[b] =
                { s.stations[b] with attention := false } := Vector.getElem_set_self b.isLt
            rw [hget] at ha
            cases ha
          · exact ⟨fun e => hb (Source.station.inj e), by rw [e] at ha; exact ha⟩
        · rw [e] at ha
          cases ha
    rw [hrecord _ (Ne.symm hold.1)]
    exact hattention a hold.2

theorem Move.keeps_eventsFit (hmove : Move s t) (h : s.eventsFit) : t.eventsFit := by
  have hset {n : SlotNo} {x y : Exchange} (hx : s.slots[n] = some x) (hxu : x.st.isUnread = false)
      (hyu : y.st.isUnread = false) (hslots : t.slots = s.slots.set n (some y)) (hevents : t.events = s.events)
      (hstations : t.stations = s.stations) : t.eventsFit :=
    State.eventsFit_of_same (by rw [hevents]) (State.unread_set ((State.unread_some hx).trans hxu) hslots hyu)
      (fun a ha => .inl (by rwa [hstations] at ha)) h
  cases hmove with
  | stations v hr ha => exact State.eventsFit_of_same (s := s) rfl (fun _ => rfl) ha h
  | report src k d hsrc => exact State.eventsFit_report hsrc h
  | park n x y g d own hx hxy =>
    exact hset hx (SlotState.isUnread_of_not_done hxy.notDone) (SlotState.isUnread_of_not_done hxy.notDone') rfl rfl rfl
  | record n x y op hx hxy =>
    exact hset hx (SlotState.isUnread_of_not_done hxy.notDone) (SlotState.isUnread_of_not_done hxy.notDone') rfl rfl rfl
  | store n x y m hx hst hy => exact hset hx (by rw [hst]; rfl) (by rw [hy]; rfl) rfl rfl rfl
  | fill n x y p rest bytes op hx hst hy =>
    exact hset hx (Exchange.isUnread_of_connectedRead hst) (Exchange.isUnread_of_connectedRead hy) rfl rfl rfl
  | done n x y r hx hnot hy hchain hparams hsrc => exact State.eventsFit_done hx hnot hy hsrc h
  | pop r rest hrest => exact State.eventsFit_pop hrest h
  | release n x hx hst =>
    refine State.eventsFit_of_same (s := s) rfl (fun m => ?_) (fun a => .inl) h
    by_cases hm : m = n
    · subst hm
      rw [State.unread_none slot_set_self, State.unread_some hx]
      rcases hst with hst | ⟨-, hread⟩
      · rw [hst]; rfl
      · exact hread.symm
    · exact State.unread_congr (slot_set_ne hm)
  | _ => exact h

theorem Start.keeps_eventsFit (hstart : Start s t) (h : s.eventsFit) : t.eventsFit := by
  cases hstart with
  | claimed n g hn =>
    exact State.eventsFit_of_same (s := s) rfl (State.unread_set (State.unread_none hn) rfl rfl) (fun a => .inl) h
  | softReset =>
    refine ⟨List.nodup_nil, fun n => ?_, fun a ha => ?_⟩
    · rw [State.unread_none (State.softReset_slot n)]
      rfl
    · rw [State.softReset_station] at ha
      cases ha
  | hardwareReset held strap op =>
    refine ⟨List.nodup_nil, fun n => ?_, fun a ha => ?_⟩
    · rw [State.unread_none (State.hardwareReset_slot n)]
      rfl
    · rw [State.hardwareReset_station] at ha
      cases ha
  | _ => exact h

/-- Settles O55, move by move. -/
theorem oneRecordPerSource : Obligations.OneRecordPerSource := by
  intro s t hevents hstep
  exact step_keeps (P := fun s => s.eventsFit) (fun _ _ h => h) (fun _ h => h) (fun _ _ hstart => hstart.keeps_eventsFit)
    (fun _ _ hmove => hmove.keeps_eventsFit) hevents hstep

end Sys2Proof.Machine
end

section
/-!
PROOF. The data of an issued exchange is frozen: a slot that a step begins with and does not free keeps its pages, their
bytes and its parameter bytes at every move.
-/
set_option Elab.async false

namespace Sys2Proof.Machine

variable {s t u : State} {n m : SlotNo} {x y z : Exchange} {a : StationNo} {p q : Page} {b : Memory}

/-! ### Pages in one place -/

/-- A page of a slot's chain is neither free nor reserved, and in no other slot's chain (R126). -/
theorem State.pagesConserved_chain (h : s.pagesConserved) (hp : p ∈ s.chainOf n) :
    p ∉ s.stage.free ∧ p ∉ s.stage.reserved ∧ ∀ m, m ≠ n → p ∉ s.chainOf m := by
  have hnodup : s.allPages.Nodup := h.nodup_iff.mpr (List.nodup_finRange 256)
  have hchains : p ∈ (List.finRange 32).flatMap s.chainOf := List.mem_flatMap.mpr ⟨n, List.mem_finRange n, hp⟩
  unfold State.allPages at hnodup
  obtain ⟨-, hflat, hdisjoint⟩ := List.nodup_append.mp hnodup
  obtain ⟨-, hpair⟩ := List.nodup_flatMap.mp hflat
  have hsymm : Std.Symm (Function.onFun List.Disjoint s.chainOf) := ⟨fun _ _ hab => hab.symm⟩
  refine ⟨fun hf => hdisjoint p (List.mem_append_left _ hf) p hchains rfl,
    fun hr => hdisjoint p (List.mem_append_right _ hr) p hchains rfl, fun m hm hpm => ?_⟩
  exact hpair.forall (List.mem_finRange m) (List.mem_finRange n) hm hpm hp

theorem readByte_fillPages_other (ps : List Page) (v : Memory) (hp : p ∉ ps) {o : Nat} (ho : o < 64) :
    Memory.readByte (ps.foldl (fun m p => Memory.fillPage m p []) v) (pageAddress p o) =
      Memory.readByte v (pageAddress p o) := by
  induction ps generalizing v with
  | nil => rfl
  | cons q ps ih =>
    rw [List.foldl_cons, ih _ (List.not_mem_of_not_mem_cons hp)]
    exact Memory.readByte_fillPage_other v q p [] o ho (List.ne_of_not_mem_cons hp)

/-! ### Frozen data (O58) -/

/-- While a slot is not FREE it has the data of an issued exchange `x`: its parameter bytes, and its pages in their places
with the bytes they have in the memory `b`. -/
def State.Froze (b : Memory) (n : SlotNo) (x : Exchange) (s : State) : Prop :=
  ∀ y, s.slots[n] = some y → y.st ≠ .prepared ∧ y.params = x.params ∧ x.chain <+: y.chain ∧
    ∀ p ∈ x.chain, ∀ o < 64, Memory.readByte s.stage.mem (pageAddress p o) = Memory.readByte b (pageAddress p o)

theorem State.froze_refl (hx : s.slots[n] = some x) (hst : x.st ≠ .prepared) : s.Froze s.stage.mem n x := by
  intro y hy
  obtain rfl := Option.some.inj (hx.symm.trans hy)
  exact ⟨hst, rfl, List.prefix_refl _, fun _ _ _ _ => rfl⟩

/-- A slot record goes on from another as an issued one does: it keeps its data. -/
def Exchange.GoesOn (y z : Exchange) : Prop :=
  y.st ≠ .prepared → z.st ≠ .prepared ∧ z.params = y.params ∧ y.chain <+: z.chain

theorem Exchange.GoesOn.refl (y : Exchange) : y.GoesOn y := fun h => ⟨h, rfl, List.prefix_refl _⟩

theorem State.Froze.step (h : s.Froze b n x) (hslot : ∀ z, t.slots[n] = some z → ∃ y, s.slots[n] = some y ∧ y.GoesOn z)
    (hmem : ∀ y, s.slots[n] = some y → y.st ≠ .prepared → ∀ p ∈ y.chain, ∀ o < 64,
      Memory.readByte t.stage.mem (pageAddress p o) = Memory.readByte s.stage.mem (pageAddress p o)) :
    t.Froze b n x := by
  intro z hz
  obtain ⟨y, hy, hon⟩ := hslot z hz
  obtain ⟨hst, hparams, hchain, hbytes⟩ := h y hy
  obtain ⟨hst', hparams', hchain'⟩ := hon hst
  exact ⟨hst', hparams'.trans hparams, hchain.trans hchain', fun p hp o ho =>
    (hmem y hy hst p (hchain.subset hp) o ho).trans (hbytes p hp o ho)⟩

theorem State.Froze.of_same (h : s.Froze b n x) (hslots : t.slots = s.slots) (hmem : t.stage.mem = s.stage.mem) :
    t.Froze b n x :=
  h.step (fun z hz => ⟨z, by rwa [hslots] at hz, .refl z⟩) fun _ _ _ _ _ _ _ => by rw [hmem]

/-- One slot record goes on, and the other slots keep theirs. -/
theorem goesOn_set {y' : Exchange} (hy : s.slots[m] = some y) (hon : y.GoesOn y')
    (hz : (s.slots.set m (some y'))[n] = some z) : ∃ y, s.slots[n] = some y ∧ y.GoesOn z := by
  rcases slots_set_some hz with ⟨e, ez⟩ | ⟨-, ez⟩
  · subst e
    obtain rfl := Option.some.inj ez
    exact ⟨y, hy, hon⟩
  · exact ⟨z, ez, .refl z⟩

theorem Exchange.Becomes.goesOn (h : x.Becomes y) : x.GoesOn y :=
  fun hst => ⟨fun e => hst (h.issued e), h.params, by rw [h.chain]⟩

theorem Exchange.ne_prepared_of_connectedRead (h : x.isConnectedRead = true) : x.st ≠ .prepared := by
  intro e
  unfold Exchange.isConnectedRead at h
  split at h
  · next hst => rw [hst] at e; cases e
  · cases h

theorem Exchange.seen_goesOn (x : Exchange) : x.GoesOn x.seen := by
  intro hst
  obtain ⟨-, -, -, hchain, hparams⟩ := x.seen_data
  refine ⟨?_, hparams, by rw [hchain]⟩
  unfold Exchange.seen
  split
  · simp
  · exact hst

theorem Move.keeps_froze (hmove : Move s t) (hpages : s.pagesConserved) (h : s.Froze b n x) : t.Froze b n x := by
  cases hmove with
  | report src k d => exact h.of_same (State.report_slots _ _ _ _) (by rw [State.report_stage])
  | park m y z g d own hy hyz => exact h.step (fun _ hz => goesOn_set hy hyz.goesOn hz) fun _ _ _ _ _ _ _ => rfl
  | pages g hm => exact h.of_same rfl hm
  | record m y z op hy hyz => exact h.step (fun _ hz => goesOn_set hy hyz.goesOn hz) fun _ _ _ _ _ _ _ => rfl
  | store m y z v hy hst hst' hchain hr hm hbytes =>
    refine h.step (fun _ hz => goesOn_set hy (fun hne => absurd hst hne) hz) fun y' hy' hne p hp o ho => hbytes p ?_ o ho
    have hmn : m ≠ n := by
      rintro rfl
      obtain rfl := Option.some.inj (hy.symm.trans hy')
      exact hne hst
    obtain ⟨-, -, hother⟩ := State.pagesConserved_chain (n := n) hpages (by rw [State.chainOf_some hy']; exact hp)
    have := hother m hmn
    rwa [State.chainOf_some hy] at this
  | fill m y z q rest bytes op hy hst hst' hchain hparams hq =>
    have hon : y.GoesOn z := fun _ =>
      ⟨Exchange.ne_prepared_of_connectedRead hst', hparams, by rw [hchain]; exact List.prefix_append _ _⟩
    refine h.step (fun _ hz => goesOn_set hy hon hz) fun y' hy' hne p hp o ho => ?_
    obtain ⟨-, hreserved, -⟩ := State.pagesConserved_chain (n := n) hpages (by rw [State.chainOf_some hy']; exact hp)
    refine Memory.readByte_fillPage_other _ _ _ _ _ ho fun e => hreserved ?_
    rw [hq, e]
    exact List.mem_cons_self
  | done m y z r hy hnot hst hchain hparams =>
    have hon : y.GoesOn z := fun _ => ⟨fun e => (by rw [e] at hst; cases hst), hparams, by rw [hchain]⟩
    exact h.step (fun _ hz => goesOn_set hy hon hz) fun _ _ _ _ _ _ _ => rfl
  | pop r rest hrest =>
    rw [State.eventPop_of_cons s hrest]
    refine h.step (fun z hz => ?_) fun _ _ _ _ _ _ _ => by rw [State.clearSource_frame]; rfl
    rcases State.clearSource_slot_cases (s := s.popped rest) r.source n with e | ⟨-, e⟩
    · exact ⟨z, e.symm.trans hz, .refl z⟩
    · rw [hz] at e
      obtain ⟨y, hy, rfl⟩ := Option.map_eq_some_iff.mp e.symm
      exact ⟨y, hy, y.seen_goesOn⟩
  | release m y hy =>
    refine h.step (fun z hz => ?_) fun _ _ _ _ _ _ _ => rfl
    rcases slots_set_some hz with ⟨-, e⟩ | ⟨-, e⟩
    · cases e
    · exact ⟨z, e, .refl z⟩
  | _ => exact h

theorem Start.keeps_froze (hstart : Start s t) (hpages : s.pagesConserved) (hx : s.slots[n] = some x)
    (h : s.Froze b n x) : t.Froze b n x := by
  cases hstart with
  | claimed m g hm =>
    refine h.step (fun z hz => ?_) fun y hy hne p hp o ho => ?_
    · rcases slots_set_some hz with ⟨e, -⟩ | ⟨-, e⟩
      · subst e
        cases hm.symm.trans hx
      · exact ⟨z, e, .refl z⟩
    · obtain ⟨hfree, -, -⟩ := State.pagesConserved_chain (n := n) hpages (by rw [State.chainOf_some hy]; exact hp)
      exact readByte_fillPages_other _ _ (fun e => hfree (List.mem_of_mem_take e)) ho
  | softReset =>
    intro y hy
    rw [State.softReset_slot] at hy
    cases hy
  | hardwareReset held strap op =>
    intro y hy
    rw [State.hardwareReset_slot] at hy
    cases hy
  | _ => exact h

/-- Settles O58: the data is frozen at what the step begins with, and every move keeps it, since a page stands in one
place alone. -/
theorem issuedDataStaysFrozen : Obligations.IssuedDataStaysFrozen := by
  intro s t n x y hpages hstep hx hst hy
  obtain ⟨q, hleads⟩ := step_leads hstep
  obtain ⟨u, hstart, hmoves⟩ := hleads.begins
  have hself : s.Froze s.stage.mem n x := State.froze_refl hx hst
  have hu : u.pagesConserved ∧ u.Froze s.stage.mem n x := by
    rcases hstart with hstart | rfl
    · exact ⟨hstart.keeps_pagesConserved hpages, hstart.keeps_froze hpages hx hself⟩
    · exact ⟨hpages, hself⟩
  have ht : t.pagesConserved ∧ t.Froze s.stage.mem n x := by
    clear hstep hleads hy
    induction hmoves with
    | refl => exact hu
    | tail _ hlast ih => exact ⟨hlast.keeps_pagesConserved ih.1, hlast.keeps_froze ih.1 ih.2⟩
  obtain ⟨-, hparams, hchain, hbytes⟩ := ht.2 y hy
  exact ⟨hparams, hchain, hbytes⟩

end Sys2Proof.Machine
end

section
/-!
PROOF. The deadline list in ascending remaining time: every move keeps the order and a lower bound of 0 or 1, the advance of
the timebase lowers the bound to 0, and its expiries bring it back to 1.
-/
set_option Elab.async false

namespace Sys2Proof.Machine

variable {s t u : State} {n m : SlotNo} {x y z : Exchange} {a : StationNo} {b : Nat}

/-- The deadline list holds PARKED(STATION) slots, each once, in ascending remaining time, and no remaining time is below a
bound. -/
structure State.Timed (b : Nat) (s : State) : Prop where
  held : s.deadlinesHeld
  nodup : s.park.deadlines.Nodup
  sorted : s.park.deadlines.Pairwise fun n m => s.remaining n ≤ s.remaining m
  bounds : ∀ n ∈ s.park.deadlines, b ≤ s.remaining n ∧ s.remaining n ≤ 65535

theorem State.remaining_congr (hslot : t.slots[n] = s.slots[n]) (htime : t.park.timebase = s.park.timebase) :
    t.remaining n = s.remaining n := by
  simp only [State.remaining, hslot, htime]

theorem State.isStationParked_congr (hslot : t.slots[n] = s.slots[n]) : t.isStationParked n = s.isStationParked n := by
  simp only [State.isStationParked, State.slotState, hslot]

theorem State.isStationParked_iff : s.isStationParked n = true ↔ ∃ x g d, s.slots[n] = some x ∧ x.st = .parkedStation g d := by
  constructor
  · intro h
    simp only [State.isStationParked, State.slotState] at h
    split at h
    · next g d e =>
      obtain ⟨x, hx, hst⟩ := Option.map_eq_some_iff.mp e
      exact ⟨x, g, d, hx, hst⟩
    · cases h
  · rintro ⟨x, g, d, hx, hst⟩
    simp only [State.isStationParked, State.slotState, hx, Option.map_some, hst]

theorem State.remaining_of_parked {g : Tag} {d : BitVec 32} (hx : s.slots[n] = some x) (hst : x.st = .parkedStation g d) :
    s.remaining n = (d - s.park.timebase).toNat := by
  simp only [State.remaining, hx, hst]

/-- A list that only loses entries, whose slots and timebase are kept. -/
theorem State.Timed.of_kept (h : s.Timed b) (hsub : t.park.deadlines.Sublist s.park.deadlines)
    (htime : t.park.timebase = s.park.timebase) (hslot : ∀ m ∈ s.park.deadlines, t.slots[m] = s.slots[m]) :
    t.Timed b := by
  have hrem (m : SlotNo) (hm : m ∈ s.park.deadlines) : t.remaining m = s.remaining m :=
    State.remaining_congr (hslot m hm) htime
  refine ⟨fun m hm => ?_, h.nodup.sublist hsub, ?_, fun m hm => ?_⟩
  · rw [State.isStationParked_congr (hslot m (hsub.subset hm))]
    exact h.held m (hsub.subset hm)
  · refine (h.sorted.sublist hsub).imp_of_mem fun hm hm' hle => ?_
    rw [hrem _ (hsub.subset hm), hrem _ (hsub.subset hm')]
    exact hle
  · rw [hrem m (hsub.subset hm)]
    exact h.bounds m (hsub.subset hm)

theorem State.Timed.of_same (h : s.Timed b) (hslots : t.slots = s.slots) (hpark : t.park = s.park) : t.Timed b :=
  h.of_kept (by rw [hpark]) (by rw [hpark]) fun m _ => by rw [hslots]

/-- The record of a slot that is off the list changes. -/
theorem State.Timed.of_set {o : Option Exchange} (h : s.Timed b) (hn : n ∉ s.park.deadlines)
    (hslots : t.slots = s.slots.set n o) (hpark : t.park = s.park) : t.Timed b :=
  h.of_kept (by rw [hpark]) (by rw [hpark]) fun m hm => by
    rw [hslots]
    exact slot_set_ne fun e => hn (e ▸ hm)

/-- A slot is armed at its place in the order (R88). -/
theorem State.Timed.park {own : Nat} {g : Tag} {d : BitVec 32} (h : s.Timed b) (hn : n ∉ s.park.deadlines)
    (hy : y.st = .parkedStation g d) (hown : (d - s.park.timebase).toNat = own) (hlow : b ≤ own) (hhigh : own ≤ 65535) :
    ((s.setSlot n (some y)).arm n own).Timed b := by
  have hget : (s.setSlot n (some y)).slots[n] = some y := slot_set_self
  have hset : (s.setSlot n (some y)).Timed b := h.of_set hn rfl rfl
  have hself : (s.setSlot n (some y)).remaining n = own := (State.remaining_of_parked hget hy).trans hown
  obtain ⟨before, after, hins, hsplit, hbefore, hafter⟩ :=
    insertByRemaining_split (s.setSlot n (some y)).remaining n own s.park.deadlines
  have hlist : ((s.setSlot n (some y)).arm n own).park.deadlines = before ++ n :: after := hins
  have hmem (m : SlotNo) : m ∈ before ++ n :: after ↔ m = n ∨ m ∈ s.park.deadlines := by
    rw [hsplit]
    simp only [List.mem_append, List.mem_cons]
    tauto
  have hrem : ((s.setSlot n (some y)).arm n own).remaining = (s.setSlot n (some y)).remaining := rfl
  have hsorted : (before ++ after).Pairwise fun p q => (s.setSlot n (some y)).remaining p ≤
      (s.setSlot n (some y)).remaining q := hsplit ▸ hset.sorted
  refine ⟨fun m hm => ?_, ?_, ?_, fun m hm => ?_⟩
  · rw [hlist, hmem] at hm
    rcases hm with rfl | hm
    · exact State.isStationParked_iff.mpr ⟨y, g, d, hget, hy⟩
    · exact hset.held m hm
  · rw [hlist]
    refine List.nodup_middle.mpr (List.nodup_cons.mpr ⟨fun hm => hn (hsplit ▸ hm), hsplit ▸ h.nodup⟩)
  · rw [hlist, hrem]
    obtain ⟨hfront, hback, hcross⟩ := List.pairwise_append.mp hsorted
    refine List.pairwise_append.mpr ⟨hfront, List.pairwise_cons.mpr ⟨fun m hm => ?_, hback⟩, fun p hp q hq => ?_⟩
    · rw [hself]
      cases hafter' : after with
      | nil => rw [hafter'] at hm; cases hm
      | cons q rest =>
        have hlt := hafter q rest hafter'
        rw [hafter'] at hm hback
        rcases List.mem_cons.mp hm with rfl | hm
        · exact hlt.le
        · exact hlt.le.trans ((List.pairwise_cons.mp hback).1 m hm)
    · rcases List.mem_cons.mp hq with rfl | hq
      · rw [hself]
        exact hbefore p hp
      · exact hcross p hp q hq
  · rw [hlist, hmem] at hm
    rw [hrem]
    rcases hm with rfl | hm
    · rw [hself]
      exact ⟨hlow, hhigh⟩
    · exact hset.bounds m hm

/-! ### Moves -/

theorem Move.keeps_stationsInRange (hmove : Move s t) (h : ∀ a : StationNo, s.stations[a].inRange) :
    ∀ a : StationNo, t.stations[a].inRange := by
  cases hmove with
  | stations v hr => exact fun a => hr a (h a)
  | report src k d =>
    intro a
    rw [State.report_stations]
    exact h a
  | pop r rest hrest =>
    intro a
    rw [State.eventPop_of_cons s hrest]
    rcases State.clearSource_station_cases (s := s.popped rest) r.source a with e | ⟨-, e⟩
    · rw [e]
      exact h a
    · rw [e]
      exact h a
  | _ => exact h

theorem Exchange.seen_of_not_done (h : x.st.isDone = false) : x.seen = x := by
  unfold Exchange.seen
  split
  · next hst => rw [hst] at h; cases h
  · rfl

theorem Exchange.not_parked_of_connectedRead (h : x.isConnectedRead = true) (g : Tag) (d : BitVec 32) :
    x.st ≠ .parkedStation g d := by
  intro e
  unfold Exchange.isConnectedRead at h
  split at h
  · next hst => rw [hst] at e; cases e
  · cases h

theorem Move.keeps_timed (hb : b ≤ 1) (hmove : Move s t) (hr : ∀ a : StationNo, s.stations[a].inRange) (h : s.Timed b) :
    t.Timed b := by
  cases hmove with
  | report src k d => exact h.of_same (State.report_slots _ _ _ _) (State.report_park _ _ _ _)
  | unarm l hl => exact h.of_kept hl rfl fun _ _ => rfl
  | park n x y g d own hx hxy hoff hy hown hhigh hlow =>
    exact h.park (State.not_mem_deadlines hx hoff h.held) hy hown (hb.trans (hlow hr)) hhigh
  | record n x y op hx hxy hd => exact h.of_set (hd h.held) rfl rfl
  | store n x y m hx hst => exact h.of_set (State.not_mem_deadlines hx (by simp [hst]) h.held) rfl rfl
  | fill n x y p rest bytes op hx hst =>
    exact h.of_set (State.not_mem_deadlines hx (Exchange.not_parked_of_connectedRead hst) h.held) rfl rfl
  | done n x y r hx hnot hy hchain hparams hsrc hrep hd => exact h.of_set (hd h.held) rfl rfl
  | pop r rest hrest =>
    rw [State.eventPop_of_cons s hrest]
    have hpark : ((s.popped rest).clearSource r.source).park = s.park := by rw [State.clearSource_frame]; rfl
    refine h.of_kept (by rw [hpark]) (by rw [hpark]) fun m hm => ?_
    rcases State.clearSource_slot_cases (s := s.popped rest) r.source m with e | ⟨-, e⟩
    · exact e
    · obtain ⟨x, g, d, hx, hst⟩ := State.isStationParked_iff.mp (h.held m hm)
      have hseen : x.seen = x := Exchange.seen_of_not_done (by rw [hst]; rfl)
      have hx' : (s.popped rest).slots[m] = some x := hx
      rw [e, hx', hx, Option.map_some, hseen]
  | release n x hx hst =>
    refine h.of_set (State.not_mem_deadlines hx (fun g d e => ?_) h.held) rfl rfl
    rw [e] at hst
    rcases hst with hst | ⟨hst, -⟩
    · cases hst
    · cases hst
  | _ => exact h.of_same rfl rfl

theorem Moves.keeps_timed (hb : b ≤ 1) (hmoves : Moves s t) (hr : ∀ a : StationNo, s.stations[a].inRange)
    (h : s.Timed b) : (∀ a : StationNo, t.stations[a].inRange) ∧ t.Timed b := by
  induction hmoves with
  | refl => exact ⟨hr, h⟩
  | tail _ hlast ih => exact ⟨hlast.keeps_stationsInRange ih.1, hlast.keeps_timed hb ih.1 ih.2⟩

/-! ### The advance of the timebase (R87, R90) -/

theorem remaining_tick (d v : BitVec 32) (h : 1 ≤ (d - v).toNat) : (d - (v + 1)).toNat = (d - v).toNat - 1 := by
  bv_omega

theorem State.tick_timed (h : s.Timed 1) : s.tick.Timed 0 := by
  have hrem (m : SlotNo) (hm : m ∈ s.park.deadlines) : s.tick.remaining m = s.remaining m - 1 := by
    obtain ⟨x, g, d, hx, hst⟩ := State.isStationParked_iff.mp (h.held m hm)
    have hx' : s.tick.slots[m] = some x := hx
    have hone := (h.bounds m hm).1
    rw [State.remaining_of_parked hx hst] at hone ⊢
    rw [State.remaining_of_parked hx' hst]
    exact remaining_tick d _ hone
  refine ⟨h.held, h.nodup, ?_, fun m hm => ⟨Nat.zero_le _, ?_⟩⟩
  · refine h.sorted.imp_of_mem fun hm hm' hle => ?_
    rw [hrem _ hm, hrem _ hm']
    exact Nat.sub_le_sub_right hle 1
  · rw [hrem m hm]
    exact (Nat.sub_le _ _).trans (h.bounds m hm).2

/-- The head of the list bounds the others. -/
theorem State.Timed.raise {l : List SlotNo} (h : s.Timed 0) (hl : s.park.deadlines = n :: l) (hn : 1 ≤ s.remaining n) :
    s.Timed 1 := by
  refine ⟨h.held, h.nodup, h.sorted, fun m hm => ⟨?_, (h.bounds m hm).2⟩⟩
  have hsorted := h.sorted
  rw [hl] at hm hsorted
  rcases List.mem_cons.mp hm with rfl | hm
  · exact hn
  · exact hn.trans ((List.pairwise_cons.mp hsorted).1 m hm)

theorem State.Timed.of_empty (h : s.Timed 0) (hl : s.park.deadlines = []) : s.Timed 1 :=
  ⟨h.held, h.nodup, h.sorted, fun m hm => by rw [hl] at hm; cases hm⟩

theorem State.one_le_remaining (hp : s.isStationParked n = true) (h : s.deadlineReached n = false) :
    1 ≤ s.remaining n := by
  obtain ⟨x, g, d, hx, hst⟩ := State.isStationParked_iff.mp hp
  rw [State.remaining_of_parked hx hst]
  simp only [State.deadlineReached, hx, hst, beq_eq_false_iff_ne] at h
  bv_omega

theorem State.Timed.expireWhile {l : List SlotNo} (hr : ∀ a : StationNo, s.stations[a].inRange) (h : s.Timed 0)
    (hl : s.park.deadlines = l) : (s.expireWhile l).Timed 1 := by
  induction l generalizing s with
  | nil => exact h.of_empty hl
  | cons n l ih =>
    have hn : s.isStationParked n = true := h.held n (by rw [hl]; exact List.mem_cons_self)
    unfold State.expireWhile
    split
    · obtain ⟨hr', h'⟩ := Moves.keeps_timed (Nat.zero_le 1) (Moves.expire (n := n)) hr h
      refine ih hr' h' ?_
      obtain ⟨x, g, d, hx, hst⟩ := State.isStationParked_iff.mp hn
      have hnodup := h.nodup
      rw [hl, List.nodup_cons] at hnodup
      have hlist : (s.expire n).park.deadlines = s.park.deadlines.filter (· ≠ n) := by
        simp only [State.expire, hx, hst]
        rfl
      rw [hlist, hl, List.filter_cons_of_neg (by simp), List.filter_eq_self]
      intro m hm
      simp only [ne_eq, decide_not, Bool.not_eq_true', decide_eq_false_iff_not]
      rintro rfl
      exact hnodup.1 hm
    · next hlater => exact h.raise hl (State.one_le_remaining hn (Bool.eq_false_of_not_eq_true hlater))

theorem State.Timed.takeExpiries (hr : ∀ a : StationNo, s.stations[a].inRange) (h : s.Timed 0) :
    (∀ a : StationNo, s.takeExpiries.stations[a].inRange) ∧ s.takeExpiries.Timed 1 := by
  obtain ⟨hr', -⟩ := Moves.keeps_timed (Nat.zero_le 1) (Moves.expireWhile s.park.deadlines) hr h
  exact Moves.keeps_timed (Nat.le_refl 1) Moves.choose hr' (h.expireWhile hr rfl)

theorem State.Timed.advance (hr : ∀ a : StationNo, s.stations[a].inRange) (h : s.Timed 1) : s.advance.Timed 1 := by
  have htick : s.tick.Timed 0 := State.tick_timed h
  have hfree : s.tick.useFree.Timed 0 := htick.of_same rfl rfl
  unfold State.advance
  split
  · split
    · obtain ⟨hr', h'⟩ := Moves.keeps_timed (Nat.zero_le 1) (Moves.pollTick (s := s.tick.useFree)) hr hfree
      exact (h'.takeExpiries hr').2
    · obtain ⟨hr', h'⟩ := State.Timed.takeExpiries (s := s.tick.useFree) hr hfree
      exact (Moves.keeps_timed (Nat.le_refl 1) Moves.pollTick hr' h').2
  · split
    · obtain ⟨hr', h'⟩ := State.Timed.takeExpiries (s := s.tick) hr htick
      exact (Moves.keeps_timed (Nat.le_refl 1) Moves.pollTick hr' h').2
    · next hhead =>
      refine (Moves.keeps_timed (Nat.le_refl 1) (Moves.pollTick (s := s.tick)) hr ?_).2
      cases hl : s.tick.park.deadlines with
      | nil => exact htick.of_empty hl
      | cons n l =>
        simp only [State.headReached, hl, Bool.not_eq_true] at hhead
        exact htick.raise hl (State.one_le_remaining (htick.held n (by rw [hl]; exact List.mem_cons_self)) hhead)

/-! ### Every step (O57) -/

theorem State.timed_of_fits (hdeadlines : s.deadlinesFit) (hlists : s.listsFit) : s.Timed 1 := by
  obtain ⟨hsorted, hbounds⟩ := hdeadlines
  obtain ⟨-, -, -, -, -, hnodup, hexact⟩ := hlists
  exact ⟨fun n hn => (hexact n).mp hn, hnodup, hsorted, hbounds⟩

theorem Start.keeps_stationsInRange (hstart : Start s t) (h : ∀ a : StationNo, s.stations[a].inRange) :
    ∀ a : StationNo, t.stations[a].inRange := by
  cases hstart with
  | softReset =>
    intro a
    rw [State.softReset_station]
    exact ⟨Nat.zero_le 3, (h a).2⟩
  | hardwareReset held strap op =>
    intro a
    rw [State.hardwareReset_station]
    decide
  | _ => exact h

theorem State.timed_of_no_deadlines (h : s.park.deadlines = []) : s.Timed b := by
  refine ⟨fun n hn => ?_, by rw [h]; exact List.nodup_nil, by rw [h]; exact List.Pairwise.nil, fun n hn => ?_⟩
  · rw [h] at hn; cases hn
  · rw [h] at hn; cases hn

theorem Start.keeps_timed (hstart : Start s t) (h : s.Timed b) : t.Timed b := by
  cases hstart with
  | same => exact h
  | claimed n g hn =>
    refine h.of_set (n := n) (fun hm => ?_) rfl rfl
    obtain ⟨x, g, d, hx, -⟩ := State.isStationParked_iff.mp (h.held n hm)
    cases hn.symm.trans hx
  | softReset => exact State.timed_of_no_deadlines (by simp only [State.softReset])
  | hardwareReset held strap op => exact State.timed_of_no_deadlines (by simp only [State.hardwareReset])

/-- Settles O57: the moves keep the bound 1, and the advance of the timebase with its expiries restores it. -/
theorem deadlinesStandInOrder : Obligations.DeadlinesStandInOrder := by
  intro s t hdeadlines hconsistent hr hstep
  obtain ⟨hlists, -⟩ := hconsistent
  obtain ⟨q, hleads⟩ := step_leads hstep
  have hs : ({ s with pending := q } : State).Timed 1 := (State.timed_of_fits hdeadlines hlists).of_same rfl rfl
  have ht : t.Timed 1 := by
    cases hleads with
    | advance => exact State.Timed.advance (s := { s with pending := q }) hr hs
    | moves hu hmoves =>
      exact (Moves.keeps_timed (Nat.le_refl 1) hmoves (hu.keeps_stationsInRange hr) (hu.keeps_timed hs)).2
  exact ⟨ht.sorted, ht.bounds⟩

end Sys2Proof.Machine
end

section
/-!
PROOF. Reservations belong to the READ that awaits its data (R130, R131). An operation either leaves none, or leaves the
list as it was with the READ awaiting as before (`Holds`); a grant point and the filling of a page are the two that change
the list.
-/
set_option Elab.async false

namespace Sys2Proof.Machine

variable {s t u : State} {n m : SlotNo} {x y z : Exchange} {a : StationNo} {k k' : Carried} {w : PollWindow} {i : Instr}

/-! ### The READ that awaits its data -/

theorem State.readAwaits_iff : s.readAwaits = true ↔
    ∃ c x, s.link.op = .exchange c ∧ s.slots[c.slot] = some x ∧ x.isConnectedRead = true ∧ c.phase = .awaiting := by
  unfold State.readAwaits
  constructor
  · intro h
    split at h
    · next c hop =>
      split at h
      · next x hx =>
        simp only [Bool.and_eq_true, beq_iff_eq] at h
        exact ⟨c, x, hop, hx, h⟩
      · cases h
    · cases h
  · rintro ⟨c, x, hop, hx, hread, hphase⟩
    simp only [hop, hx, hread, hphase]
    rfl

theorem State.readAwaits_eq_false (h : ∀ c, s.link.op ≠ .exchange c) : s.readAwaits = false := by
  refine Bool.eq_false_of_not_eq_true fun e => ?_
  obtain ⟨c, -, hop, -⟩ := State.readAwaits_iff.mp e
  exact h c hop

theorem State.readAwaits_carried (h : s.carried = some k) :
    s.readAwaits = true ↔ k.x.op = .read ∧ k.c.phase = .awaiting := by
  obtain ⟨hop, hx, hst⟩ := s.carried_spec k h
  have hread : k.x.isConnectedRead = true ↔ k.x.op = .read := by
    unfold Exchange.isConnectedRead
    rw [hst]
    cases k.x.op <;> simp
  rw [State.readAwaits_iff]
  constructor
  · rintro ⟨c, x, hop', hx', hr, hphase⟩
    obtain rfl := LinkOp.exchange.inj (hop.symm.trans hop')
    obtain rfl := Option.some.inj (hx.symm.trans hx')
    exact ⟨hread.mp hr, hphase⟩
  · rintro ⟨hr, hphase⟩
    exact ⟨k.c, k.x, hop, hx, hread.mpr hr, hphase⟩

/-- No page is reserved, or the reservation list is as it was. -/
def State.Spares (s t : State) : Prop := t.stage.reserved = [] ∨ t.stage.reserved = s.stage.reserved

/-- No page is reserved, or the reservation list is as it was and a READ that awaited its data still does. -/
def State.Holds (s t : State) : Prop :=
  t.stage.reserved = [] ∨ (t.stage.reserved = s.stage.reserved ∧ (s.readAwaits = true → t.readAwaits = true))

/-- No READ has pages reserved while it awaits its data. -/
abbrev State.Clear (s : State) : Prop := s.stage.reserved = [] ∨ s.readAwaits = false

theorem State.Spares.refl (s : State) : s.Spares s := .inr rfl

theorem State.Spares.trans (h : s.Spares t) (h' : t.Spares u) : s.Spares u := by
  rcases h' with h' | h'
  · exact .inl h'
  · exact h.imp h'.trans h'.trans

theorem State.spares_of_eq (h : t.stage.reserved = s.stage.reserved) : s.Spares t := .inr h

theorem State.spares_of_stage (h : t.stage = s.stage) : s.Spares t := .inr (by rw [h])

theorem State.Holds.refl (s : State) : s.Holds s := .inr ⟨rfl, id⟩

theorem State.Holds.trans (h : s.Holds t) (h' : t.Holds u) : s.Holds u := by
  rcases h' with h' | ⟨h', hread'⟩
  · exact .inl h'
  · rcases h with h | ⟨h, hread⟩
    · exact .inl (h'.trans h)
    · exact .inr ⟨h'.trans h, hread' ∘ hread⟩

theorem State.Holds.fits (h : s.Holds t) (hs : s.reservationsFit) : t.reservationsFit := by
  obtain ⟨hlen, hawait⟩ := hs
  rcases h with h | ⟨h, hread⟩
  · rw [State.reservationsFit, h]
    exact ⟨Nat.zero_le 4, fun hne => absurd rfl hne⟩
  · rw [State.reservationsFit, h]
    exact ⟨hlen, fun hne => hread (hawait hne)⟩

theorem State.Clear.holds (hs : s.Clear) (h : s.Spares t) : s.Holds t := by
  rcases h with h | h
  · exact .inl h
  · rcases hs with hs | hs
    · exact .inl (h.trans hs)
    · exact .inr ⟨h, fun hread => by rw [hs] at hread; cases hread⟩

theorem State.clear_of_op (h : ∀ c, s.link.op ≠ .exchange c) : s.Clear := .inr (State.readAwaits_eq_false h)

theorem State.clear_of_carried (h : s.carried = some k) (hk : k.x.op = .read → k.c.phase ≠ .awaiting) : s.Clear :=
  .inr (Bool.eq_false_of_not_eq_true fun e =>
    hk ((State.readAwaits_carried h).mp e).1 ((State.readAwaits_carried h).mp e).2)

/-- The slots and the operation are as they were. -/
theorem State.holds_of_core (hslots : t.slots = s.slots) (hop : t.link.op = s.link.op)
    (hres : t.stage.reserved = s.stage.reserved) : s.Holds t :=
  .inr ⟨hres, fun h => by rwa [State.readAwaits, hslots, hop]⟩

/-- A slot record changes that is not a connected READ, or stays one. -/
theorem State.holds_of_set {o : Option Exchange} (hx : s.slots[n] = some x) (hslots : t.slots = s.slots.set n o)
    (hop : ∀ c, s.link.op = .exchange c → t.link.op = .exchange c) (hres : t.stage.reserved = s.stage.reserved)
    (h : x.isConnectedRead = true → ∃ y, o = some y ∧ y.isConnectedRead = true) : s.Holds t := by
  refine .inr ⟨hres, fun hawait => ?_⟩
  obtain ⟨c, z, hc, hz, hread, hphase⟩ := State.readAwaits_iff.mp hawait
  by_cases hn : c.slot = n
  · subst hn
    obtain rfl := Option.some.inj (hx.symm.trans hz)
    obtain ⟨y, rfl, hy⟩ := h hread
    exact State.readAwaits_iff.mpr ⟨c, y, hop c hc, by rw [hslots]; exact slot_set_self, hy, hphase⟩
  · exact State.readAwaits_iff.mpr ⟨c, z, hop c hc, by rw [hslots, slot_set_ne hn]; exact hz, hread, hphase⟩

theorem Exchange.isConnectedRead_eq_false (h : ∀ g r p, x.st ≠ .connected g r p) : x.isConnectedRead = false := by
  unfold Exchange.isConnectedRead
  split
  · next hst => exact absurd hst (h _ _ _)
  · rfl

/-! ### The shared operations -/

theorem State.spares_giveUpReserved : s.Spares s.giveUpReserved := .inl rfl

/-- An entry into DONE, written out: result bytes are kept for CONTROL only (R6, R25). -/
theorem State.enterDone_of_some (hx : s.slots[n] = some x) (f : FinalStatus) (st : Option Byte) (res : List Byte) :
    s.enterDone n f st res = s.afterDone n x f st (if x.op = .control then res else []) := by
  by_cases hop : x.op = .control
  · rw [if_pos hop]
    exact s.enterDone_eq n x f st res hx (.inr hop)
  · rw [if_neg hop, ← s.enterDone_eq n x f st [] hx (.inl rfl)]
    simp only [State.enterDone, hx, hop, if_false]

theorem State.enterDone_cases (hx : s.slots[n] = some x) (f : FinalStatus) (st : Option Byte) (res : List Byte) :
    (x.isConnectedRead = true ∧ (s.enterDone n f st res).stage.reserved = []) ∨
      (x.isConnectedRead = false ∧ (s.enterDone n f st res).stage.reserved = s.stage.reserved) := by
  rw [State.enterDone_of_some hx]
  cases hread : x.isConnectedRead with
  | true => exact .inl ⟨rfl, by simp only [State.afterDone, hread, if_true]⟩
  | false => exact .inr ⟨rfl, by simp only [State.afterDone, hread, Bool.false_eq_true, if_false]⟩

theorem State.spares_enterDone (n : SlotNo) (f : FinalStatus) (st : Option Byte) (res : List Byte) :
    s.Spares (s.enterDone n f st res) := by
  cases hx : s.slots[n] with
  | none =>
    unfold State.enterDone
    rw [hx]
    exact .refl s
  | some x =>
    rcases s.enterDone_cases hx f st res with ⟨-, h⟩ | ⟨-, h⟩
    · exact .inl h
    · exact .inr h

theorem State.holds_enterDone (hx : s.slots[n] = some x) (f : FinalStatus) (st : Option Byte) (res : List Byte) :
    s.Holds (s.enterDone n f st res) := by
  rcases s.enterDone_cases hx f st res with ⟨-, h⟩ | ⟨hread, h⟩
  · exact .inl h
  · rw [State.enterDone_of_some hx] at h ⊢
    refine State.holds_of_set hx rfl (fun c hc => ?_) h (by simp [hread])
    simp only [State.afterDone, hc]

theorem State.holds_choose : s.Holds s.choose := by
  rcases s.choose_cases with h | ⟨hidle, -⟩
  · rw [h]
    exact .refl s
  · exact (State.clear_of_op (by simp [hidle])).holds (State.spares_of_stage s.choose_stage)

theorem State.spares_choose : s.Spares s.choose := State.spares_of_stage s.choose_stage

theorem State.holds_report (src : Source) (k : EventKind) (d : Detail) : s.Holds (s.report src k d) :=
  State.holds_of_core (by simp) (by simp) (by simp)

theorem State.holds_condemn {g : Tag} {f : Fatal} (hx : s.slots[n] = some x) (h : x.isConnectedRead = false) :
    s.Holds (s.condemn n x g f) :=
  State.holds_of_set hx rfl (fun _ h => h) rfl (by simp [h])

theorem State.holds_recalled {g : Tag} {r : ParkReason} (hx : s.slots[n] = some x) (h : x.isConnectedRead = false) :
    s.Holds (s.recalled n x g r) :=
  State.holds_of_set hx rfl (fun _ h => h) rfl (by simp [h])

/-! ### A connection -/

/-- The connection on the link goes on as `k`: the same slot, with its op, its station and its tag. -/
def State.Carries (s : State) (k : Carried) : Prop :=
  ∃ k0, s.carried = some k0 ∧ k.c.slot = k0.c.slot ∧ k.x.op = k0.x.op ∧ k.x.station = k0.x.station ∧ k.tag = k0.tag

theorem State.carries_of_carried (h : s.carried = some k) : s.Carries k := ⟨k, h, rfl, rfl, rfl, rfl⟩

theorem State.Carries.leads (h : s.Carries k) (hslot : k'.c.slot = k.c.slot) (hop : k'.x.op = k.x.op)
    (hstation : k'.x.station = k.x.station) (htag : k'.tag = k.tag) : s.Carries k' := by
  obtain ⟨k0, h0, h1, h2, h3, h4⟩ := h
  exact ⟨k0, h0, hslot.trans h1, hop.trans h2, hstation.trans h3, htag.trans h4⟩

theorem State.Carries.slot (h : s.Carries k) :
    ∃ x g r p, s.slots[k.c.slot] = some x ∧ x.st = .connected g r p ∧ x.op = k.x.op := by
  obtain ⟨k0, h0, hslot, hop, -, -⟩ := h
  obtain ⟨-, hx, hst⟩ := s.carried_spec k0 h0
  exact ⟨k0.x, k0.tag, k0.retry, k0.waiting, slots_of_eq hslot hx, hst, hop.symm⟩

theorem State.Carries.op (h : s.Carries k) : ∃ c, s.link.op = .exchange c ∧ c.slot = k.c.slot := by
  obtain ⟨k0, h0, hslot, -, -, -⟩ := h
  obtain ⟨hop, -, -⟩ := s.carried_spec k0 h0
  exact ⟨k0.c, hop, hslot.symm⟩

/-- The slot of the connection leaves the link: a READ has given up its reservations. -/
theorem State.Carries.holds_of_ended (h : s.Carries k) (hread : k.x.op = .read → t.stage.reserved = [])
    (hother : k.x.op ≠ .read → s.Spares t) : s.Holds t := by
  by_cases hop : k.x.op = .read
  · exact .inl (hread hop)
  · obtain ⟨k0, h0, -, hop0, -, -⟩ := h
    exact (State.clear_of_carried h0 fun e => absurd (hop0.trans e) hop).holds (hother hop)

theorem State.Carries.enterDone_reserved (h : s.Carries k) (hread : k.x.op = .read) (f : FinalStatus) (st : Option Byte)
    (res : List Byte) : (s.enterDone k.c.slot f st res).stage.reserved = [] := by
  obtain ⟨x, g, r, p, hx, hst, hop⟩ := h.slot
  rcases s.enterDone_cases hx f st res with ⟨-, he⟩ | ⟨hno, -⟩
  · exact he
  · simp [Exchange.isConnectedRead, hst, hop, hread] at hno

theorem State.Carries.holds_finish (h : s.Carries k) (f : FinalStatus) (st : Option Byte) (res : List Byte) :
    s.Holds (s.finish k.c.slot f st res) :=
  h.holds_of_ended (fun hread => h.enterDone_reserved hread f st res) fun _ => s.spares_enterDone k.c.slot f st res

theorem State.spares_finishMissed (n : SlotNo) (f : FinalStatus) (a : StationNo) : s.Spares (s.finishMissed n f a) :=
  (s.spares_enterDone n f none []).trans (State.spares_of_stage (State.miss_stage _ _))

theorem State.Carries.holds_finishMissed (h : s.Carries k) (f : FinalStatus) : s.Holds (s.finishMissed k.c.slot f a) :=
  h.holds_of_ended
    (fun hread => by
      have hmiss : (s.finishMissed k.c.slot f a).stage = (s.enterDone k.c.slot f none []).stage := by
        exact State.miss_stage _ _
      rw [hmiss]
      exact h.enterDone_reserved hread f none [])
    fun _ => s.spares_finishMissed k.c.slot f a

/-- The connection is written back, and awaits if it did. -/
theorem State.holds_carry (h : s.carried = some k) (hop : k'.x.op = k.x.op)
    (hphase : k.c.phase = .awaiting → k'.c.phase = .awaiting) : s.Holds (s.carry k') := by
  refine .inr ⟨rfl, fun hawait => ?_⟩
  obtain ⟨hread, hawaiting⟩ := (State.readAwaits_carried h).mp hawait
  rw [State.readAwaits_carried State.carried_carry]
  exact ⟨hop.trans hread, hphase hawaiting⟩

theorem State.readAwaits_carry (hop : k.x.op = .read) (hphase : k.c.phase = .awaiting) : (s.carry k).readAwaits = true :=
  (State.readAwaits_carried State.carried_carry).mpr ⟨hop, hphase⟩

theorem State.holds_send (f : Frame) : s.Holds (s.send f) := State.holds_of_core rfl rfl rfl

theorem State.holds_enterAbortPhase (k : Carried) : s.Holds (s.enterAbortPhase k) := .inl rfl

theorem State.holds_abortRecovery (h : s.carried = some k) : s.Holds (s.abortRecovery k) := by
  unfold State.abortRecovery
  split
  · exact (State.holds_carry (k' := { k with retry := k.retry + 1 }) h rfl id).trans (State.holds_send _)
  · exact (State.carries_of_carried h).holds_finishMissed _

theorem State.holds_abortAtTurn (h : s.carried = some k) (hop : k'.x.op = k.x.op)
    (hphase : k.c.phase = .awaiting → k'.c.phase = .awaiting) : s.Holds (s.abortAtTurn k') := by
  unfold State.abortAtTurn
  split
  · exact State.holds_enterAbortPhase k'
  · exact State.holds_carry h hop hphase

theorem State.holds_protocolError (h : s.carried = some k) : s.Holds (s.protocolError k) :=
  State.holds_abortAtTurn h rfl id

theorem State.spares_startBurst (k : Carried) : s.Spares (s.startBurst k) := .inr rfl

theorem State.spares_sendClosingAck (k : Carried) : s.Spares (s.sendClosingAck k) := .inr rfl

theorem State.Clear.holds_recover {g : State → Carried → State} (hs : s.Clear) (hg : ∀ k, s.Spares (g s k)) :
    s.Holds (s.recover k g) := by
  unfold State.recover
  split
  · exact hs.holds (hg _)
  · exact State.holds_enterAbortPhase _

theorem State.Carries.holds_parkStation (h : s.Carries k) : s.Holds (s.parkStation k) := by
  refine h.holds_of_ended (fun hread => ?_) fun hother => ?_
  · simp only [State.parkStation, hread, if_true]
    rfl
  · simp only [State.parkStation, hother, if_false]
    exact .inr rfl

/-! ### Grant points -/

/-- The credit limits of the stations keep a grant within 4 pages (R59, R92). -/
theorem State.grantCredit_le (hr : ∀ a : StationNo, s.stations[a].inRange) : s.grantCredit k ≤ 4 := by
  obtain ⟨-, -, -, -, hcredit, -⟩ := hr k.x.station
  exact (Nat.min_le_left _ _).trans hcredit

theorem StageMem.reserveTo_length_le (g : StageMem) (c : Nat) : (g.reserveTo c).reserved.length ≤ c := by
  rw [StageMem.reserveTo_eq]
  exact List.length_take_le _ _

theorem State.grantPoint_fits (hr : ∀ a : StationNo, s.stations[a].inRange) (hread : k.x.op = .read) :
    (s.grantPoint k).reservationsFit := by
  unfold State.grantPoint
  dsimp only
  split
  · split
    · next hzero =>
      have hnone : (s.stage.reserveTo (s.grantCredit k)).reserved = [] :=
        List.eq_nil_of_length_eq_zero (Nat.le_zero.mp (hzero ▸ StageMem.reserveTo_length_le s.stage (s.grantCredit k)))
      exact ⟨by simp [State.parkPool, State.withStage, hnone], fun h => absurd hnone h⟩
    · exact ⟨(StageMem.reserveTo_length_le _ _).trans (State.grantCredit_le hr), fun _ => State.readAwaits_carry hread rfl⟩
  · exact ⟨Nat.zero_le 4, fun h => absurd rfl h⟩

theorem State.enterAbortPhase_fits (k : Carried) : (s.enterAbortPhase k).reservationsFit :=
  ⟨Nat.zero_le 4, fun h => absurd rfl h⟩

theorem State.recover_fits (hr : ∀ a : StationNo, s.stations[a].inRange) (hread : k.x.op = .read) :
    (s.recover k State.grantPoint).reservationsFit := by
  unfold State.recover
  split
  · exact State.grantPoint_fits hr hread
  · exact State.enterAbortPhase_fits _

theorem State.afterData_fits (hr : ∀ a : StationNo, s.stations[a].inRange) (hread : k.x.op = .read)
    (hphase : k.c.phase = .awaiting) (hlen : s.stage.reserved.length ≤ 4) : (s.afterData k).reservationsFit := by
  unfold State.afterData State.afterBurst
  split
  · split
    · exact State.recover_fits hr hread
    · exact State.grantPoint_fits hr hread
  · exact ⟨hlen, fun _ => State.readAwaits_carry hread hphase⟩

end Sys2Proof.Machine
end

section
/-!
PROOF. Every row leaves the reservations with the READ that awaits its data.
-/
set_option Elab.async false

namespace Sys2Proof.Machine

variable {s t u : State} {n m : SlotNo} {x y z : Exchange} {a : StationNo} {k k' : Carried} {w : PollWindow} {i : Instr}

/-- A row keeps the reservations fitting, given the credit limits of the stations. -/
def State.Reserves (s t : State) : Prop :=
  (∀ a : StationNo, s.stations[a].inRange) → s.reservationsFit → t.reservationsFit

theorem State.Holds.reserves (h : s.Holds t) : s.Reserves t := fun _ => h.fits

theorem State.Reserves.refl (s : State) : s.Reserves s := fun _ => id

theorem State.Reserves.trans (h : s.Reserves t) (hm : Moves s t) (h' : t.Reserves u) : s.Reserves u := by
  intro hr hs
  have hr' : ∀ a : StationNo, t.stations[a].inRange := by
    clear h h' hs
    induction hm with
    | refl => exact hr
    | tail _ hlast ih => exact hlast.keeps_stationsInRange ih
  exact h' hr' (h hr hs)

theorem State.Reserves.holds (h : s.Reserves t) (h' : t.Holds u) : s.Reserves u := fun hr hs => h'.fits (h hr hs)

/-! ### Abort visits and the poll window -/

theorem State.holds_withStation (a : StationNo) (f : Station → Station) : s.Holds (s.withStation a f) :=
  State.holds_of_core rfl rfl rfl

theorem State.holds_withArb (f : Arbiter → Arbiter) : s.Holds (s.withArb f) := State.holds_of_core rfl rfl rfl

theorem State.holds_endOp (hop : ∀ c, s.link.op ≠ .exchange c) : s.Holds s.endOp :=
  (State.clear_of_op hop).holds (.inr rfl)

theorem Exchange.isConnectedRead_of_connected {g g' : Tag} {r r' : Nat} {p p' : Option Fatal}
    (hst : x.st = .connected g r p) :
    ({ x with st := .connected g' r' p' } : Exchange).isConnectedRead = x.isConnectedRead := by
  unfold Exchange.isConnectedRead
  rw [hst]
  cases x.op <;> rfl

theorem State.spares_send (f : Frame) : s.Spares (s.send f) := .inr rfl

theorem State.spares_visitRecovery (n : SlotNo) (limit : Nat) : s.Spares (s.visitRecovery n limit) := by
  unfold State.visitRecovery
  split
  · split
    · split
      · exact .inr rfl
      · exact s.spares_finishMissed _ _ _
    · exact .refl s
  · exact .refl s

theorem State.holds_endAborting (n : SlotNo) (st : Option Byte) : s.Holds (s.endAborting n st) := by
  unfold State.endAborting
  split
  · next hx =>
    split
    · exact State.holds_enterDone hx _ _ _
    · exact .refl s
  · exact .refl s

theorem State.spares_endAborting (n : SlotNo) (st : Option Byte) : s.Spares (s.endAborting n st) :=
  (State.holds_endAborting n st).imp id And.left

theorem State.spares_serveCleanup (w : PollWindow) : s.Spares (s.serveCleanup w) := by
  have htaken (n : SlotNo) : (s.takeUp n).stage.reserved = s.stage.reserved := by
    unfold State.takeUp
    split
    · split <;> rfl
    · rfl
  unfold State.serveCleanup
  split
  · exact .inr rfl
  · dsimp only
    split
    · exact .inr (htaken _)
    · exact .inr rfl

theorem State.spares_openReplySlot (w : PollWindow) (left : List StationNo) : s.Spares (s.openReplySlot w left) := by
  unfold State.openReplySlot
  split
  · exact .inr rfl
  · exact State.spares_serveCleanup _

theorem State.holds_endReplySlot : s.Holds s.endReplySlot := by
  unfold State.endReplySlot
  split
  · next hop => exact (State.clear_of_op (by simp [hop])).holds (State.spares_openReplySlot _ _)
  · exact .refl s

theorem State.holds_nextCleanup : s.Holds s.nextCleanup := by
  unfold State.nextCleanup
  split
  · next hop => exact (State.clear_of_op (by simp [hop])).holds (State.spares_serveCleanup _)
  · exact .refl s

theorem State.holds_enterCleanup (e : CleanupEntry) : s.Holds (s.enterCleanup e) := by
  cases hop : s.link.op with
  | poll w => exact (State.clear_of_op (by simp [hop])).holds (.inr rfl)
  | _ => exact State.holds_of_core rfl (by simp [State.enterCleanup, State.withLink, hop]) rfl

theorem State.holds_orphan (a : StationNo) (g : Tag) : s.Holds (s.orphan a g) :=
  (State.holds_report _ _ _).trans (State.holds_enterCleanup _)

theorem State.holds_judgeRecall (a : StationNo) (g : Tag) (offset : Nat) : s.Holds (s.judgeRecall a g offset) := by
  unfold State.judgeRecall
  split
  · exact State.holds_orphan a g
  · split
    · exact State.holds_orphan a g
    · next x hx =>
      have hoff (h : ∀ g r p, x.st ≠ .connected g r p) : x.isConnectedRead = false := Exchange.isConnectedRead_eq_false h
      split
      · next hst =>
        split
        · exact State.holds_recalled hx (hoff (by simp [hst]))
        · exact State.holds_condemn hx (hoff (by simp [hst]))
      · next hst =>
        split
        · exact State.holds_recalled hx (hoff (by simp [hst]))
        · exact .refl s
      · exact State.holds_enterCleanup _
      · exact State.holds_orphan a g

theorem State.holds_visitOther {limit : Nat} (hop : s.link.op = .abortVisit n limit) : s.Holds (s.visitOther n limit) := by
  unfold State.visitOther
  split
  · exact (State.clear_of_op (by simp [hop])).holds (s.spares_visitRecovery n limit)
  · exact .refl s

theorem State.holds_cleanupOther (w : PollWindow) : s.Holds (s.cleanupOther w) := by
  unfold State.cleanupOther
  split
  · split
    · split
      · exact (State.holds_endAborting _ _).trans State.holds_nextCleanup
      · exact State.holds_nextCleanup
    · exact State.holds_nextCleanup
  · exact .refl s

/-! ### The frames a station sends -/

theorem State.holds_abortSentOther (h : s.carried = some k) : s.Holds (s.abortSentOther k) := by
  unfold State.abortSentOther
  split
  · exact State.holds_abortRecovery h
  · exact .refl s

theorem State.reserves_inOperation {normal : State → Carried → State}
    (hn : ∀ k, s.carried = some k → s.Reserves (normal s k)) : s.Reserves (s.inOperation normal) := by
  unfold State.inOperation
  split
  · split
    · next k h =>
      split
      · exact (State.holds_abortSentOther h).reserves
      · split
        · exact (State.holds_abortAtTurn h rfl id).reserves
        · exact hn k h
    · exact .refl s
  · next hop => exact (State.holds_visitOther hop).reserves
  · exact (State.holds_cleanupOther _).reserves
  · exact .refl s

theorem State.clear_of_write (h : s.carried = some k) (hop : k.x.op = .write) : s.Clear :=
  State.clear_of_carried h fun e => by rw [hop] at e; cases e

theorem State.reserves_normalAccept {f : FrameBody} (h : s.carried = some k) : s.Reserves (State.normalAccept f s k) := by
  unfold State.normalAccept
  split
  · next hread _ => exact fun hr _ => State.grantPoint_fits hr hread
  · next hwrite _ =>
    have hclear := State.clear_of_write h hwrite
    split
    · dsimp only
      split
      · exact (hclear.holds (State.spares_startBurst _)).reserves
      · exact (hclear.holds (State.spares_sendClosingAck _)).reserves
    · exact (State.holds_protocolError h).reserves
  · exact (State.holds_protocolError h).reserves

theorem State.spares_finish (n : SlotNo) (f : FinalStatus) (st : Option Byte) (res : List Byte) :
    s.Spares (s.finish n f st res) := (s.spares_enterDone n f st res).trans (.inr rfl)

theorem State.spares_refused (k : Carried) (reason : Nat) : s.Spares (s.refused k reason) := by
  unfold State.refused
  split
  · split
    · exact .inr rfl
    · exact State.spares_finish (s := s.setSlot _ _) _ _ _ _
  · exact s.spares_finish _ _ _ _

theorem State.holds_normalRefuse {f : FrameBody} (h : s.carried = some k) : s.Holds (State.normalRefuse f s k) := by
  unfold State.normalRefuse
  split
  · next hphase _ =>
    exact (State.clear_of_carried h fun _ e => by rw [hphase] at e; cases e).holds (State.spares_refused _ _)
  · exact State.holds_protocolError h

theorem State.reserves_takeRefuse {f : FrameBody} : s.Reserves (s.takeRefuse f) := by
  unfold State.takeRefuse
  split
  · next k _ h =>
    split
    · exact (State.holds_abortSentOther h).reserves
    · split
      · exact ((State.carries_of_carried h).holds_finish _ _ _).reserves
      · exact (State.holds_abortAtTurn h rfl id).reserves
      · exact (State.holds_normalRefuse h).reserves
  · exact State.reserves_inOperation fun k h => (State.holds_normalRefuse h).reserves

theorem State.reserves_normalDefer {f : FrameBody} (h : s.carried = some k) : s.Reserves (State.normalDefer f s k) := by
  unfold State.normalDefer
  split
  · next o _ =>
    split
    · exact (State.Carries.leads (k' := { k with x := { k.x with doneCount := o } }) (State.carries_of_carried h) rfl rfl
        rfl rfl).holds_parkStation.reserves
    · exact (State.holds_protocolError h).reserves
  · exact (State.holds_protocolError h).reserves

theorem State.Carries.of_same (h : s.Carries k) (hslots : t.slots = s.slots) (hop : t.link.op = s.link.op) :
    t.Carries k := by
  obtain ⟨k0, h0, hrest⟩ := h
  refine ⟨k0, ?_, hrest⟩
  rw [← h0, State.carried, State.carried, hop, hslots]

theorem State.holds_closeCounted (f : FrameBody) : s.Holds (s.closeCounted f) := by
  unfold State.closeCounted
  split
  · exact State.holds_of_core rfl rfl rfl
  · exact .refl s

theorem State.closeCounted_op (f : FrameBody) : (s.closeCounted f).link.op = s.link.op := by
  unfold State.closeCounted
  split <;> rfl

theorem State.holds_takeClose {f : FrameBody} : s.Holds (s.takeClose f) := by
  have hcounted : s.Holds (s.closeCounted f) := State.holds_closeCounted f
  have hop' : (s.closeCounted f).link.op = s.link.op := State.closeCounted_op f
  have hslots : (s.closeCounted f).slots = s.slots := State.closeCounted_slots f
  rw [State.closeCounted] at hcounted hop' hslots
  unfold State.takeClose
  dsimp only
  split
  · split
    · next k h =>
      split
      · exact hcounted.trans (((State.carries_of_carried h).of_same hslots hop').holds_finish _ _ _)
      · split
        · split
          · exact (State.carries_of_carried h).holds_finish _ _ _
          · exact State.holds_protocolError h
        · exact State.holds_protocolError h
    · exact .refl s
  · next hop =>
    refine (State.clear_of_op (by simp [hop])).holds (State.Spares.trans ?_ (State.Spares.trans
      (State.spares_endAborting _ _) (.inr rfl)))
    exact hcounted.imp id And.left
  · split
    · split
      · exact hcounted.trans ((State.holds_endAborting _ _).trans State.holds_nextCleanup)
      · exact State.holds_nextCleanup
    · exact State.holds_nextCleanup
  · exact .refl s

theorem State.holds_normalAck {f : FrameBody} (h : s.carried = some k) : s.Holds (State.normalAck f s k) := by
  unfold State.normalAck
  split
  · next hwrite _ =>
    have hclear := State.clear_of_write h hwrite
    dsimp only
    split
    · unfold State.acknowledged
      dsimp only
      split
      · exact hclear.holds (State.spares_sendClosingAck _)
      · split
        · exact hclear.holds_recover State.spares_startBurst
        · exact hclear.holds (State.spares_startBurst _)
    · exact State.holds_protocolError h
  · exact State.holds_protocolError h

theorem State.reserves_normalData {f : FrameBody} (h : s.carried = some k) : s.Reserves (State.normalData f s k) := by
  unfold State.normalData
  split
  · next hphase hread =>
    split
    · split
      · next hok =>
        obtain ⟨-, -, -, -, hsome⟩ := dataAcceptable_iff.mp hok
        obtain ⟨p, rest, hp⟩ := List.exists_cons_of_ne_nil hsome
        intro hr hs
        obtain ⟨hlen, -⟩ := hs
        rw [hp, List.length_cons] at hlen
        simp only [State.fillReserved, hp]
        refine State.afterData_fits ?_ hread hphase ?_
        · exact hr
        · exact Nat.le_of_succ_le hlen
      · exact (State.holds_protocolError h).reserves
    · exact fun hr hs => State.afterData_fits hr hread hphase hs.1
  · exact (State.holds_protocolError h).reserves

theorem State.holds_takeReply_parts {r : Option (Byte × Nat)} : s.Holds (s.takeRecall a r) := by
  unfold State.takeRecall
  split
  · split
    · exact State.holds_judgeRecall _ _ _
    · exact State.holds_report _ _ _
  · exact .refl s

theorem State.holds_takeAttention {code : Option Byte} : s.Holds (s.takeAttention a code) := by
  unfold State.takeAttention
  split
  · exact State.holds_of_core (by simp) (by simp) (by simp)
  · exact .refl s

theorem State.reserves_takeReply {f : FrameBody} : s.Reserves (s.takeReply f) := by
  unfold State.takeReply
  split
  · refine State.Holds.reserves ?_
    unfold State.replyInSlot
    split
    · exact (State.holds_withStation _ _).trans
        (State.holds_takeReply_parts.trans (State.holds_takeAttention.trans State.holds_endReplySlot))
    · exact (State.holds_report _ _ _).trans State.holds_endReplySlot
  · exact State.reserves_inOperation fun k h => (State.holds_protocolError h).reserves

theorem State.holds_takeTurn (f : Frame) : s.Holds (s.takeTurn f) := by
  unfold State.takeTurn
  split
  · split
    · exact State.holds_of_core rfl rfl rfl
    · exact State.holds_of_core rfl rfl rfl
  · exact .refl s

theorem State.holds_badFrame (c : LinkFault) : s.Holds (s.badFrame c) :=
  State.holds_of_core (by simp) (by simp) (by simp)

theorem State.reserves_receive {f : Frame} {together : Bool} {phase : State → State} (h : ∀ u : State, u.Reserves (phase u)) :
    s.Reserves (s.receive f together phase) := by
  unfold State.receive
  split
  · exact .refl s
  · split
    · exact (State.holds_badFrame _).reserves
    · split
      · next a _ =>
        have hseen : s.Holds (s.stationSeen a) := State.holds_of_core (by simp) (by simp) (by simp)
        exact State.Reserves.trans (hseen.trans (State.holds_takeTurn f)).reserves
          ((Moves.stationSeen a).trans (Moves.takeTurn f)) ((h _).holds State.holds_choose)
      · exact (State.holds_badFrame _).reserves

theorem State.reserves_receiveByKind {f : Frame} {together : Bool} : s.Reserves (s.receiveByKind f together) := by
  refine State.reserves_receive fun u => ?_
  have hcondemned : u.Reserves (u.inOperation State.protocolError) :=
    State.reserves_inOperation fun k h => (State.holds_protocolError h).reserves
  split
  · exact State.reserves_inOperation fun k h => State.reserves_normalAccept h
  · exact State.reserves_takeRefuse
  · exact State.reserves_inOperation fun k h => State.reserves_normalDefer h
  · exact State.holds_takeClose.reserves
  · exact State.reserves_inOperation fun k h => (State.holds_normalAck h).reserves
  · exact State.reserves_inOperation fun k h => State.reserves_normalData h
  · exact State.reserves_takeReply
  all_goals exact hcondemned

theorem State.reserves_receiveBytes {b : ReceivedBytes} : s.Reserves (s.receiveBytes b) := by
  unfold State.receiveBytes
  split
  · exact .refl s
  · split
    · exact .refl s
    · exact (State.holds_badFrame _).reserves
  · exact State.reserves_receiveByKind

/-! ### The frames the head sends, and the timers -/

theorem State.holds_passTo (f : Frame) : s.Holds (s.passTo f) := by
  unfold State.passTo
  split
  · exact State.holds_of_core rfl rfl rfl
  · exact .refl s

theorem State.holds_dataSent (f : Frame) : s.Holds (s.dataSent f) := by
  unfold State.dataSent
  split
  · next k h =>
    dsimp only
    split
    · exact State.Holds.trans (State.holds_carry
        (k' := { k with c := { k.c with nextSend := f.body.seq + 1, phase := .awaiting } }) h rfl fun _ => rfl)
        (State.holds_passTo f)
    · split
      · exact State.holds_enterAbortPhase _
      · exact (State.holds_carry (k' := { k with c := { k.c with nextSend := f.body.seq + 1 } }) h rfl id).trans
          (State.holds_send _)
  · exact .refl s

theorem State.holds_parkedDone (f : Frame) : s.Holds (s.parkedDone f) := by
  unfold State.parkedDone
  split
  · next hop => exact (State.holds_endOp (by simp [hop])).trans State.holds_choose
  · exact .refl s

theorem State.holds_pollDone (f : Frame) : s.Holds (s.pollDone f) := by
  unfold State.pollDone
  split
  · next hop =>
    refine (State.clear_of_op (by simp [hop])).holds (State.Spares.trans ?_ (State.spares_openReplySlot _ _))
    exact .inr rfl
  · exact .refl s

theorem State.holds_sent {kind : FrameKind} {g : State → Frame → State} (h : ∀ f, s.Holds (g s f)) :
    s.Holds (s.sent kind g) := by
  unfold State.sent
  split
  · split
    · exact h _
    · exact .refl s
  · exact .refl s

theorem State.holds_expire (n : SlotNo) : s.Holds (s.expire n) := by
  unfold State.expire
  split
  · next hx =>
    split
    · next hst => exact State.holds_condemn hx (Exchange.isConnectedRead_eq_false (by simp [hst]))
    · exact .refl s
  · exact .refl s

theorem State.holds_expireWhile (l : List SlotNo) : s.Holds (s.expireWhile l) := by
  induction l generalizing s with
  | nil => exact .refl s
  | cons n l ih =>
    unfold State.expireWhile
    split
    · exact (State.holds_expire n).trans ih
    · exact .refl s

theorem State.holds_takeExpiries : s.Holds s.takeExpiries := (State.holds_expireWhile _).trans State.holds_choose

theorem State.holds_pollTick : s.Holds s.pollTick := by
  unfold State.pollTick
  split
  · exact (State.holds_withArb _).trans State.holds_choose
  · exact State.holds_withArb _

theorem State.holds_advance : s.Holds s.advance := by
  have htick : s.Holds s.tick := State.holds_of_core rfl rfl rfl
  have hfree : s.Holds s.tick.useFree := State.holds_of_core rfl rfl rfl
  unfold State.advance
  split
  · split
    · exact hfree.trans (State.holds_pollTick.trans State.holds_takeExpiries)
    · exact hfree.trans (State.holds_takeExpiries.trans State.holds_pollTick)
  · split
    · exact htick.trans (State.holds_takeExpiries.trans State.holds_pollTick)
    · exact htick.trans State.holds_pollTick

theorem State.holds_expireHead : s.Holds s.expireHead := by
  unfold State.expireHead
  split
  · split
    · exact (State.holds_expire _).trans State.holds_choose
    · exact .refl s
  · exact .refl s

theorem State.reserves_connectionTimeout (h : s.carried = some k) : s.Reserves (s.connectionTimeout k) := by
  unfold State.connectionTimeout
  split
  · exact (State.holds_abortRecovery h).reserves
  · split
    · exact (State.holds_enterAbortPhase k).reserves
    · split
      · split
        · exact ((State.holds_carry (k' := { k with retry := k.retry + 1 }) h rfl id).trans (State.holds_send _)).reserves
        · exact ((State.carries_of_carried h).holds_finishMissed _).reserves
      · next hwrite => exact ((State.clear_of_write h hwrite).holds_recover State.spares_startBurst).reserves
      · next hread => exact fun hr _ => State.recover_fits hr hread
      · next hphase =>
        exact ((State.clear_of_carried h fun _ e => by rw [hphase] at e; cases e).holds_recover
          State.spares_sendClosingAck).reserves
      · exact .refl s

theorem State.holds_miss (a : StationNo) : s.Holds (s.miss a) := State.holds_of_core (by simp) (by simp) (by simp)

theorem State.holds_cleanupTimeout (w : PollWindow) : s.Holds (s.cleanupTimeout w) := by
  unfold State.cleanupTimeout
  split
  · split
    · exact (State.holds_endAborting _ _).trans ((State.holds_miss _).trans State.holds_nextCleanup)
    · exact (State.holds_miss _).trans State.holds_nextCleanup
  · exact State.holds_nextCleanup

theorem State.holds_openLate : s.Holds s.openLate := State.holds_of_core rfl rfl rfl

theorem State.reserves_replyTimeout : s.Reserves s.replyTimeout := by
  unfold State.replyTimeout
  split
  · exact .refl s
  · have hback : s.Holds (s.withLink fun l => { l with turn := .head, replyTimer := none }) :=
      State.holds_of_core rfl rfl rfl
    have hlate (v : State) : v.Holds v.choose.openLate := State.holds_choose.trans State.holds_openLate
    have hvisit {v : State} {n : SlotNo} {limit : Nat} (hv : v.link.op = .abortVisit n limit) :
        v.Holds (v.visitRecovery n limit).choose.openLate :=
      State.Holds.trans ((State.clear_of_op (by simp [hv])).holds (v.spares_visitRecovery n limit)) (hlate _)
    have hcleanup {v : State} (w : PollWindow) : v.Holds (v.cleanupTimeout w).choose.openLate :=
      State.Holds.trans (v.holds_cleanupTimeout w) (hlate _)
    dsimp only
    split
    · split
      · next k h =>
        exact State.Reserves.trans hback.reserves (Moves.withLink _ fun _ h => h)
          ((State.reserves_connectionTimeout h).holds (hlate _))
      · exact .refl s
    · next hop =>
      exact (hback.trans (hvisit hop)).reserves
    · exact (hback.trans (hcleanup _)).reserves
    · exact .refl s

theorem State.holds_replySlotTimeout : s.Holds s.replySlotTimeout := by
  unfold State.replySlotTimeout
  split
  · exact (State.holds_miss _).trans (State.holds_endReplySlot.trans (State.holds_choose.trans State.holds_openLate))
  · exact .refl s

/-! ### Commands -/

theorem State.linkReset_holds : s.Holds s.linkReset := by
  unfold State.linkReset
  split
  · exact State.holds_of_core rfl rfl rfl
  · exact .inl rfl

theorem State.holds_breakEnds : s.Holds s.breakEnds := by
  unfold State.breakEnds
  split
  · next hop => exact (State.clear_of_op (by simp [hop])).holds (.inr rfl)
  · exact .refl s

theorem State.holds_linkResetEnds : s.Holds s.linkResetEnds := by
  unfold State.linkResetEnds
  split
  · next hop =>
    exact (State.holds_endOp (by simp [hop])).trans ((State.holds_report _ _ _).trans State.holds_choose)
  · exact .refl s

theorem State.holds_loseSlot (a : StationNo) (n : SlotNo) : s.Holds (s.loseSlot a n) := by
  unfold State.loseSlot
  split
  · next hx =>
    split
    · split
      case h_6 hst =>
        exact State.holds_of_set hx rfl (fun _ h => h) rfl fun hread =>
          ⟨_, rfl, (Exchange.isConnectedRead_of_connected hst).trans hread⟩
      case h_7 => exact .refl s
      all_goals exact State.holds_enterDone hx _ _ _
    · exact .refl s
  · exact .refl s

theorem State.holds_foldl {f : State → SlotNo → State} (h : ∀ (s : State) n, s.Holds (f s n)) (l : List SlotNo) :
    s.Holds (l.foldl f s) := by
  induction l generalizing s with
  | nil => exact .refl s
  | cons n l ih => exact (h s n).trans ih

theorem State.holds_result (c : ResultCode) (v : Nat) : s.Holds (s.result c v) := State.holds_of_core rfl rfl rfl

theorem State.holds_resultChoose (c : ResultCode) (v : Nat) : s.Holds (s.result c v).choose :=
  (State.holds_result c v).trans State.holds_choose

theorem State.holds_stationOff (a : StationNo) : s.Holds (s.stationOff a) := by
  unfold State.stationOff
  split
  · exact State.holds_result _ _
  · exact (State.holds_withStation _ _).trans
      ((State.holds_foldl (fun _ n => State.holds_loseSlot a n) _).trans (State.holds_result _ _))

theorem State.holds_onSlot {f : SlotNo → State} (h : ∀ n, s.Holds (f n)) : s.Holds (s.onSlot f) := by
  unfold State.onSlot
  split
  · exact h _
  · exact State.holds_result _ _

theorem State.holds_onStation {f : StationNo → State} (h : ∀ a, s.Holds (f a)) : s.Holds (s.onStation f) := by
  unfold State.onStation
  split
  · exact h _
  · exact State.holds_result _ _

theorem State.holds_issueSlot (n : SlotNo) : s.Holds (s.issueSlot n) := by
  unfold State.issueSlot
  split
  · next x hx =>
    split
    · next hst =>
      split
      · exact State.holds_result _ _
      · have hoff : x.isConnectedRead = false := Exchange.isConnectedRead_eq_false (by simp [hst])
        have hqueued : s.Holds ((s.setSlot n (some { x with st := .queued })).joinIssue n x.urgent) :=
          State.holds_of_set hx rfl (fun _ h => h) rfl (by simp [hoff])
        exact hqueued.trans (State.holds_resultChoose _ _)
    · exact State.holds_result _ _
  · exact State.holds_result _ _

theorem State.holds_abortSlot (n : SlotNo) : s.Holds (s.abortSlot n) := by
  unfold State.abortSlot
  split
  · next x hx =>
    have hcondemned (g : Tag) (h : ∀ g r p, x.st ≠ .connected g r p) :
        s.Holds ((s.condemn n x g .aborted).result .ok n.val).choose :=
      (State.holds_condemn hx (Exchange.isConnectedRead_eq_false h)).trans (State.holds_resultChoose _ _)
    split
    · exact (State.holds_enterDone hx _ _ _).trans (State.holds_resultChoose _ _)
    · next hst => exact hcondemned _ (by simp [hst])
    · next hst => exact hcondemned _ (by simp [hst])
    · next hst => exact hcondemned _ (by simp [hst])
    · exact State.holds_result _ _
    · next hst =>
      refine State.Holds.trans ?_ (State.holds_result _ _)
      exact State.holds_of_set hx rfl (fun _ h => h) rfl fun hread =>
        ⟨_, rfl, (Exchange.isConnectedRead_of_connected hst).trans hread⟩
    · exact State.holds_result _ _
    · exact State.holds_result _ _
    · exact State.holds_result _ _
  · exact State.holds_result _ _

theorem State.holds_releaseSlot (n : SlotNo) : s.Holds (s.releaseSlot n) := by
  unfold State.releaseSlot
  split
  · next x hx =>
    have hfreed (h : ∀ g r p, x.st ≠ .connected g r p) : s.Holds ((s.freeSlot n x).result .ok n.val).choose :=
      State.Holds.trans (t := s.freeSlot n x) (State.holds_of_set hx rfl (fun _ h => h) rfl
        (by simp [Exchange.isConnectedRead_eq_false h])) (State.holds_resultChoose _ _)
    split
    · next hst => exact hfreed (by simp [hst])
    · next hst =>
      split
      · exact State.holds_result _ _
      · exact hfreed (by simp [hst])
    · exact State.holds_result _ _
  · exact State.holds_result _ _

theorem State.holds_claim : s.Holds s.claim := by
  unfold State.claim
  split
  · exact State.holds_result _ _
  · next g _ =>
    split
    · exact State.holds_result _ _
    · split
      · exact State.holds_result _ _
      · next n hn =>
        split
        · exact State.holds_result _ _
        · have hnone := State.lowestFree_none hn
          refine .inr ⟨rfl, fun hawait => ?_⟩
          obtain ⟨c, x, hop, hx, hrest⟩ := State.readAwaits_iff.mp hawait
          have hne : c.slot ≠ n := fun e => by
            subst e
            cases hnone.symm.trans hx
          exact State.readAwaits_iff.mpr ⟨c, x, hop, (slot_set_ne hne).trans hx, hrest⟩

theorem State.holds_stationOn (a : StationNo) : s.Holds (s.stationOn a) := by
  unfold State.stationOn
  split
  · exact (State.holds_withStation _ _).trans (State.holds_resultChoose _ _)
  · exact State.holds_result _ _

theorem State.holds_stationConfig (a : StationNo) : s.Holds (s.stationConfig a) := by
  unfold State.stationConfig
  split
  · split
    · exact State.holds_of_core rfl rfl rfl
    · exact State.holds_result _ _
  · exact State.holds_result _ _

theorem State.holds_pollNow : s.Holds s.pollNow :=
  (State.holds_withArb _).trans (State.holds_resultChoose _ _)

theorem State.holds_softReset : s.Holds s.softReset := .inl rfl

theorem State.holds_command (code : Byte) : s.Holds (s.command code) := by
  unfold State.command
  split
  · exact State.holds_claim
  · exact State.holds_onSlot State.holds_issueSlot
  · exact State.holds_onSlot State.holds_abortSlot
  · exact State.holds_onSlot State.holds_releaseSlot
  · exact State.holds_onStation State.holds_stationOn
  · exact State.holds_onStation State.holds_stationOff
  · exact State.holds_onStation State.holds_stationConfig
  · exact State.linkReset_holds
  · exact State.holds_pollNow
  · exact State.holds_softReset
  · exact State.holds_result _ _

/-! ### The window -/

theorem State.holds_controlWrite (v : Word) : s.Holds (s.controlWrite v) := by
  have hmarks : s.Holds (s.setMarks v) := State.holds_of_core rfl rfl rfl
  unfold State.controlWrite
  split
  · exact hmarks.trans State.holds_choose
  · exact hmarks

theorem State.holds_misuse (c : StageFault) : s.Holds (s.misuse c) := State.holds_of_core rfl rfl rfl

theorem State.holds_hostFaultWrite (v : Word) : s.Holds (s.hostFaultWrite v) := by
  unfold State.hostFaultWrite
  split <;> exact State.holds_of_core rfl rfl rfl

theorem State.holds_stageSlotWrite (v : Word) : s.Holds (s.stageSlotWrite v) := by
  unfold State.stageSlotWrite
  split <;> exact State.holds_of_core rfl rfl rfl

theorem State.holds_stageOffsetWrite (v : Word) : s.Holds (s.stageOffsetWrite v) := by
  unfold State.stageOffsetWrite
  dsimp only
  split <;> exact State.holds_of_core rfl rfl rfl

theorem State.holds_stageDataWrite (v : Word) : s.Holds (s.stageDataWrite v) := by
  unfold State.stageDataWrite
  split
  · exact State.holds_misuse _
  · next x hx =>
    split
    · next hallowed =>
      have hst := Exchange.prepared_of_writeAllowed hallowed
      split
      · unfold State.storeWord
        split
        · exact State.holds_of_set hx rfl (fun _ h => h) rfl
            (by simp [Exchange.isConnectedRead_eq_false (x := x) (by simp [hst])])
        · exact State.holds_of_core rfl rfl rfl
      · exact State.holds_misuse _
    · exact State.holds_misuse _

theorem State.holds_eventPop : s.Holds s.eventPop := by
  cases h : s.events.records with
  | nil =>
    rw [State.eventPop_of_empty s h]
    exact State.holds_of_core rfl rfl rfl
  | cons r rest =>
    have hstage : s.eventPop.stage = s.stage := by rw [State.eventPop_frame h]
    have hop : s.eventPop.link = s.link := by rw [State.eventPop_frame h]
    refine .inr ⟨by rw [hstage], fun hawait => ?_⟩
    obtain ⟨c, x, hc, hx, hread, hphase⟩ := State.readAwaits_iff.mp hawait
    refine State.readAwaits_iff.mpr ⟨c, x, by rw [hop]; exact hc, ?_, hread, hphase⟩
    rw [State.eventPop_of_cons s h]
    rcases State.clearSource_slot_cases (s := s.popped rest) r.source c.slot with e | ⟨-, e⟩
    · exact e.trans hx
    · have hseen : x.seen = x := by
        unfold Exchange.seen
        split
        · next hst => simp [Exchange.isConnectedRead, hst] at hread
        · rfl
      have hx' : (s.popped rest).slots[c.slot] = some x := hx
      rw [e, hx', Option.map_some, hseen]

theorem State.holds_registerWrite (offset : BitVec 7) (v : Word) : s.Holds (s.registerWrite offset v) := by
  unfold State.registerWrite
  split
  · exact State.holds_controlWrite v
  · exact State.holds_of_core rfl rfl rfl
  · exact State.holds_of_core rfl rfl rfl
  · exact State.holds_of_core rfl rfl rfl
  · exact State.holds_hostFaultWrite v
  · exact State.holds_command _
  · exact State.holds_of_core rfl rfl rfl
  · exact State.holds_of_core rfl rfl rfl
  · exact State.holds_of_core rfl rfl rfl
  · exact State.holds_of_core rfl rfl rfl
  · exact State.holds_of_core rfl rfl rfl
  · exact State.holds_of_core rfl rfl rfl
  · exact State.holds_stageSlotWrite v
  · exact State.holds_stageOffsetWrite v
  · exact State.holds_stageDataWrite v
  · exact State.holds_eventPop
  · exact .refl s

/-! ### Every row (O54) -/

theorem State.reserves_taken {f : State → State} (h : s.Reserves (f s)) : s.Reserves (s.taken f) := by
  unfold State.taken
  split
  · exact .refl s
  · exact h

theorem State.Holds.taken {f : State → State} (h : s.Holds (f s)) : s.Reserves (s.taken f) :=
  State.reserves_taken h.reserves

theorem State.holds_hostRead {f : State → Word × State} (h : s.Holds (f s).2) : s.Holds (s.hostRead f) := by
  unfold State.hostRead
  split
  · exact State.holds_of_core rfl rfl rfl
  · exact h.trans (State.holds_of_core rfl rfl rfl)

theorem State.holds_stageDataRead : s.Holds s.stageDataRead.2 := by
  unfold State.stageDataRead
  split
  · exact State.holds_misuse _
  · split
    · exact State.holds_misuse _
    · split <;> exact State.holds_of_core rfl rfl rfl

theorem exec_reserves (h : exec i s = .next t) : s.Reserves t := by
  have hcore {f : State → State} (hslots : (f s).slots = s.slots) (hop : (f s).link.op = s.link.op)
      (hres : (f s).stage.reserved = s.stage.reserved) : s.Reserves (s.taken f) :=
    (State.holds_of_core hslots hop hres).taken
  have hread {f : State → Word × State} (hslots : (f s).2.slots = s.slots) (hop : (f s).2.link.op = s.link.op)
      (hres : (f s).2.stage.reserved = s.stage.reserved) : s.Reserves (s.hostRead f) :=
    (State.holds_hostRead (State.holds_of_core hslots hop hres)).reserves
  cases i <;> obtain rfl := Host.Outcome.next.inj h
  case claim => exact State.holds_claim.taken
  case issue => exact (State.holds_onSlot State.holds_issueSlot).taken
  case abort => exact (State.holds_onSlot State.holds_abortSlot).taken
  case release => exact (State.holds_onSlot State.holds_releaseSlot).taken
  case stationOn => exact (State.holds_onStation State.holds_stationOn).taken
  case stationOff => exact (State.holds_onStation State.holds_stationOff).taken
  case stationConfig => exact (State.holds_onStation State.holds_stationConfig).taken
  case linkReset => exact State.linkReset_holds.taken
  case pollNow => exact State.holds_pollNow.taken
  case softReset => exact State.holds_softReset.taken
  case unknownCommandCode code => exact (State.holds_command code).taken
  case linkEnableWrite v => exact State.reserves_taken (State.holds_controlWrite v).reserves
  case pollAlwaysWrite v => exact State.reserves_taken (State.holds_controlWrite v).reserves
  case linkConfigWrite second v => exact hcore rfl rfl rfl
  case intEnableWrite v => exact hcore rfl rfl rfl
  case hostFaultClear v => exact (State.holds_hostFaultWrite v).taken
  case stageSlotWrite v => exact (State.holds_stageSlotWrite v).taken
  case stageOffsetWrite v => exact State.reserves_taken (State.holds_stageOffsetWrite v).reserves
  case stageDataRead => exact (State.holds_hostRead State.holds_stageDataRead).reserves
  case stageDataWrite v => exact (State.holds_stageDataWrite v).taken
  case event0Read => exact hread rfl rfl rfl
  case eventPop v => exact State.holds_eventPop.taken
  case slotSelectWrite v => exact hcore rfl rfl rfl
  case slotView0Read => exact hread rfl rfl rfl
  case stationSelectWrite v => exact hcore rfl rfl rfl
  case stationView0Read => exact hread rfl rfl rfl
  case timebaseLoRead => exact hread rfl rfl rfl
  case registerWrite offset v => exact (State.holds_registerWrite offset v).taken
  case resetAssert => exact State.Holds.reserves (.inl rfl)
  case resetRelease strap => exact State.Holds.reserves (.inl rfl)
  case timebaseAdvance => exact State.holds_advance.taken
  case deadlineExpiry => exact State.holds_expireHead.taken
  case pollIntervalExpiry =>
    exact State.reserves_taken
      (State.Holds.reserves (State.Holds.trans (t := s.pollTimerExpires) (State.holds_withArb _) State.holds_choose))
  case replyTimerExpiry => exact State.reserves_taken State.reserves_replyTimeout
  case replySlotTimeout => exact State.holds_replySlotTimeout.taken
  case linkResetBreakEnd => exact State.holds_breakEnds.taken
  case linkResetEnd => exact State.holds_linkResetEnds.taken
  case frameDamaged bytes => exact State.reserves_taken State.reserves_receiveBytes
  case acceptReceived f =>
    exact State.reserves_taken (State.reserves_receive fun _ => State.reserves_inOperation fun _ h =>
      State.reserves_normalAccept h)
  case refuseReceived f => exact State.reserves_taken (State.reserves_receive fun _ => State.reserves_takeRefuse)
  case deferReceived f =>
    exact State.reserves_taken (State.reserves_receive fun _ => State.reserves_inOperation fun _ h =>
      State.reserves_normalDefer h)
  case closeReceived f => exact State.reserves_taken (State.reserves_receive fun _ => State.holds_takeClose.reserves)
  case ackReceived f =>
    exact State.reserves_taken (State.reserves_receive fun _ => State.reserves_inOperation fun _ h =>
      (State.holds_normalAck h).reserves)
  case dataReceived f =>
    exact State.reserves_taken (State.reserves_receive fun _ => State.reserves_inOperation fun _ h =>
      State.reserves_normalData h)
  case replyReceived f => exact State.reserves_taken (State.reserves_receive fun _ => State.reserves_takeReply)
  case headOnlyKindReceived kind f =>
    exact State.reserves_taken (State.reserves_receive fun _ => State.reserves_inOperation fun _ h =>
      (State.holds_protocolError h).reserves)
  case callSent => exact (State.holds_sent State.holds_passTo).taken
  case resumeSent => exact (State.holds_sent State.holds_passTo).taken
  case dataFrameSent => exact (State.holds_sent State.holds_dataSent).taken
  case ackFrameSent => exact (State.holds_sent State.holds_passTo).taken
  case abortFrameSent => exact (State.holds_sent State.holds_passTo).taken
  case parkedSent => exact (State.holds_sent State.holds_parkedDone).taken
  case pollSent => exact (State.holds_sent State.holds_pollDone).taken

/-- Settles O54. -/
theorem reservationsBelongToTheAwaitingRead : Obligations.ReservationsBelongToTheAwaitingRead := by
  intro s t hfit hr hstep
  unfold step at hstep
  split at hstep
  · obtain rfl := Host.Outcome.next.inj hstep
    exact hfit
  · exact exec_reserves hstep hr hfit

end Sys2Proof.Machine
end

section
/-!
PROOF. Slots, lists, tags and the link, slot by slot. `FitsAs` says that the lists, the tags and the link have a slot as a
record says; the invariant is that they have every slot as its own record says, with the turn holder's part apart. An
operation on one slot leaves what they say of every other slot (`Agrees`).
-/
set_option Elab.async false

namespace Sys2Proof.Machine

variable {s t u : State} {n m : SlotNo} {x y z : Exchange} {a : StationNo} {o : Option Exchange} {g : Tag} {w : PollWindow}
  {op : LinkOp}

/-! ### What the lists, the tags and the link say of a slot -/

/-- CONNECTED. -/
def SlotState.onExchange : SlotState → Bool
  | .connected _ _ _ => true
  | _ => false

/-- ABORTING and on the link. -/
def SlotState.onVisit : SlotState → Bool
  | .aborting _ _ (some _) => true
  | _ => false

/-- ABORTING. -/
def SlotState.isAborting : SlotState → Bool
  | .aborting _ _ _ => true
  | _ => false

/-- The exchange on the link is the slot's. -/
def LinkOp.conducts (op : LinkOp) (n : SlotNo) : Bool := op.isExchange && op.concerns n

/-- An abort visit or a cleanup serves the slot. -/
def LinkOp.visits (op : LinkOp) (n : SlotNo) : Bool := !op.isExchange && op.concerns n

/-- The cleanup list has an entry bound to the slot. -/
def LinkOp.binds (op : LinkOp) (n : SlotNo) (e : CleanupEntry) : Prop :=
  ∃ w, op = .poll w ∧ e ∈ w.cleanup ∧ e.slot = some n

/-- The lists, the tags and the link have a slot as a record says (R21, R22, R43, R88, R100, R108, R112). -/
structure State.FitsAs (s : State) (n : SlotNo) (o : Option Exchange) : Prop where
  lists : ∀ L, (s.shelf L).count n = if o.bind Exchange.shelf = some L then 1 else 0
  conducts : s.link.op.conducts n = o.any (·.st.onExchange)
  visits : s.link.op.visits n = o.any (·.st.onVisit)
  tags : ∀ a g, s.stations[a].tagMap[g] = some n ↔ ∃ x, o = some x ∧ x.station = a ∧ x.st.tag? = some g
  cleanup : ∀ e, s.link.op.binds n e →
    ∃ x, o = some x ∧ x.station = e.station ∧ x.st.tag? = some e.tag ∧ x.st.isAborting = true

/-- The lists, the tags and the link have every slot as its record says. -/
abbrev State.Placed (s : State) : Prop := ∀ n : SlotNo, s.FitsAs n s.slots[n]

theorem State.isConnected_eq (s : State) (n : SlotNo) : s.isConnected n = s.slots[n].any (·.st.onExchange) := by
  simp only [State.isConnected, State.slotState]
  cases s.slots[n] with
  | none => rfl
  | some x => cases hst : x.st <;> simp [SlotState.onExchange, hst]

theorem State.isAbortOnLink_eq (s : State) (n : SlotNo) : s.isAbortOnLink n = s.slots[n].any (·.st.onVisit) := by
  simp only [State.isAbortOnLink, State.slotState]
  cases s.slots[n] with
  | none => rfl
  | some x =>
    cases hst : x.st with
    | aborting g f r => cases r <;> simp [SlotState.onVisit, hst]
    | _ => simp [SlotState.onVisit, hst]

theorem State.isAborting_eq (s : State) (n : SlotNo) :
    (s.isAbortWaiting n || s.isAbortOnLink n) = s.slots[n].any (·.st.isAborting) := by
  simp only [State.isAbortWaiting, State.isAbortOnLink, State.slotState]
  cases s.slots[n] with
  | none => rfl
  | some x =>
    cases hst : x.st with
    | aborting g f r => cases r <;> simp [SlotState.isAborting, hst]
    | _ => simp [SlotState.isAborting, hst]

theorem count_fits {l : List SlotNo} {p : SlotNo → Prop} :
    (l.Nodup ∧ ∀ n, n ∈ l ↔ p n) ↔ ∀ n, (p n → l.count n = 1) ∧ (¬ p n → l.count n = 0) := by
  constructor
  · rintro ⟨hnodup, hmem⟩ n
    exact ⟨fun h => List.count_eq_one_of_mem hnodup ((hmem n).mpr h), fun h => List.count_eq_zero.mpr fun hn => h ((hmem n).mp hn)⟩
  · intro h
    refine ⟨List.nodup_iff_count_le_one.mpr fun n => ?_, fun n => ⟨fun hn => ?_, fun hp => ?_⟩⟩
    · by_cases hp : p n
      · exact ((h n).1 hp).le
      · rw [(h n).2 hp]
        exact Nat.zero_le 1
    · by_contra hp
      exact absurd hn (List.count_eq_zero.mp ((h n).2 hp))
    · refine List.one_le_count_iff.mp ?_
      rw [(h n).1 hp]

/-- The invariant, slot by slot, and the turn. -/
theorem State.consistent_iff : s.consistent ↔ s.Placed ∧ s.turnFits = true := by
  have hlists : s.listsFit ↔ ∀ n : SlotNo, ∀ L, (s.shelf L).count n =
      if s.slots[n].bind Exchange.shelf = some L then 1 else 0 := by
    have hbelongs (L : Shelf) (n : SlotNo) : s.belongs L n ↔ s.slots[n].bind Exchange.shelf = some L := by
      rw [State.belongs, Option.bind_eq_some_iff]
    rw [State.listsFit_iff]
    simp only [count_fits, hbelongs]
    constructor
    · intro h n L
      split
      · next hp => exact (h L n).1 hp
      · next hp => exact (h L n).2 hp
    · intro h L n
      exact ⟨fun hp => (h n L).trans (if_pos hp), fun hp => (h n L).trans (if_neg hp)⟩
  constructor
  · rintro ⟨hl, hlink, htags, hclean, hturn⟩
    refine ⟨fun n => ⟨hlists.mp hl n, ?_, ?_, fun a g => ?_, fun e he => ?_⟩, hturn⟩
    · rw [← State.isConnected_eq]
      exact (hlink n).1.symm
    · rw [← State.isAbortOnLink_eq]
      exact (hlink n).2.symm
    · exact htags n a g
    · obtain ⟨w, hop, hmem, hslot⟩ := he
      obtain ⟨htag, habort⟩ := hclean w hop e hmem n hslot
      obtain ⟨x, hx, hstation, hst⟩ := (htags n e.station e.tag).mp htag
      rw [State.isAborting_eq] at habort
      have hx' : s.slots[n] = some x := hx
      rw [hx', Option.any_some] at habort
      exact ⟨x, hx', hstation, hst, habort⟩
  · rintro ⟨h, hturn⟩
    refine ⟨hlists.mpr fun n => (h n).lists, fun n => ⟨?_, ?_⟩, fun n a g => (h n).tags a g, fun w hop e he n hslot => ?_,
      hturn⟩
    · rw [State.isConnected_eq]
      exact (h n).conducts.symm
    · rw [State.isAbortOnLink_eq]
      exact (h n).visits.symm
    · obtain ⟨x, hx, hstation, htag, habort⟩ := (h n).cleanup e ⟨w, hop, he, hslot⟩
      refine ⟨((h n).tags e.station e.tag).mpr ⟨x, hx, hstation, htag⟩, ?_⟩
      rw [State.isAborting_eq, hx, Option.any_some]
      exact habort

/-! ### Agreement on a slot -/

/-- The lists, the tags and the link of two states say the same of a slot; the cleanup list may lose entries bound to it. -/
structure State.Agrees (s t : State) (m : SlotNo) : Prop where
  lists : ∀ L, (t.shelf L).count m = (s.shelf L).count m
  conducts : t.link.op.conducts m = s.link.op.conducts m
  visits : t.link.op.visits m = s.link.op.visits m
  tags : ∀ (a : StationNo) (g : Tag), t.stations[a].tagMap[g] = some m ↔ s.stations[a].tagMap[g] = some m
  cleanup : ∀ e, t.link.op.binds m e → s.link.op.binds m e

theorem State.Agrees.refl (s : State) (m : SlotNo) : s.Agrees s m := ⟨fun _ => rfl, rfl, rfl, fun _ _ => Iff.rfl, fun _ => id⟩

theorem State.Agrees.trans (h : s.Agrees t m) (h' : t.Agrees u m) : s.Agrees u m :=
  ⟨fun L => (h'.lists L).trans (h.lists L), h'.conducts.trans h.conducts, h'.visits.trans h.visits,
    fun a g => (h'.tags a g).trans (h.tags a g), fun e => h.cleanup e ∘ h'.cleanup e⟩

theorem State.Agrees.fitsAs (h : s.Agrees t m) (hs : s.FitsAs m o) : t.FitsAs m o :=
  ⟨fun L => (h.lists L).trans (hs.lists L), h.conducts.trans hs.conducts, h.visits.trans hs.visits,
    fun a g => (h.tags a g).trans (hs.tags a g), fun e he => hs.cleanup e (h.cleanup e he)⟩

/-- The lists, the operation and the tag maps are as they were. -/
theorem State.agrees_of_core (hshelf : ∀ L, t.shelf L = s.shelf L) (hop : t.link.op = s.link.op)
    (htags : ∀ a : StationNo, t.stations[a].tagMap = s.stations[a].tagMap) (m : SlotNo) : s.Agrees t m :=
  ⟨fun L => by rw [hshelf], by rw [hop], by rw [hop], fun a g => by rw [htags], fun e => by rw [hop]; exact id⟩

theorem State.shelf_congr (harb : t.arb = s.arb) (hpark : t.park = s.park) (L : Shelf) : t.shelf L = s.shelf L := by
  cases L <;> simp only [State.shelf, harb, hpark]

theorem State.agrees_of_same (harb : t.arb = s.arb) (hpark : t.park = s.park) (hop : t.link.op = s.link.op)
    (hstations : t.stations = s.stations) (m : SlotNo) : s.Agrees t m :=
  State.agrees_of_core (State.shelf_congr harb hpark) hop (fun a => by rw [hstations]) m

theorem State.agrees_withStation (f : Station → Station) (hf : (f s.stations[a]).tagMap = s.stations[a].tagMap)
    (m : SlotNo) : s.Agrees (s.withStation a f) m := by
  refine State.agrees_of_core (s := s) (t := s.withStation a f) (fun L => State.shelf_congr rfl rfl L) rfl (fun b => ?_) m
  by_cases h : b = a
  · subst h
    have hget : (s.withStation b f).stations[b] = f s.stations[b] := Vector.getElem_set_self b.isLt
    rw [hget, hf]
  · have hget : (s.withStation a f).stations[b] = s.stations[b] :=
      Vector.getElem_set_ne a.isLt b.isLt fun e => h (Fin.ext e.symm)
    rw [hget]

theorem State.agrees_report (src : Source) (k : EventKind) (d : Detail) (m : SlotNo) : s.Agrees (s.report src k d) m :=
  State.agrees_of_same (by simp) (by simp) (by simp) (by simp) m

theorem State.agrees_leaveLists (h : m ≠ n) : s.Agrees (s.leaveLists n) m := by
  refine ⟨fun L => ?_, rfl, rfl, fun _ _ => Iff.rfl, fun _ => id⟩
  have hfilter (l : List SlotNo) : (l.filter (· ≠ n)).count m = l.count m :=
    List.count_filter (by simpa using h)
  cases L <;> exact hfilter _

theorem State.leaveLists_count (L : Shelf) : ((s.leaveLists n).shelf L).count n = 0 := by
  have hfilter (l : List SlotNo) : (l.filter (· ≠ n)).count n = 0 := List.count_eq_zero.mpr (by simp)
  cases L <;> exact hfilter _

theorem State.agrees_setSlot (o : Option Exchange) (m : SlotNo) : s.Agrees (s.setSlot n o) m :=
  State.agrees_of_same (s := s) (t := s.setSlot n o) rfl rfl rfl rfl m

theorem State.agrees_send (f : Frame) (m : SlotNo) : s.Agrees (s.send f) m :=
  State.agrees_of_same (s := s) (t := s.send f) rfl rfl rfl rfl m

/-- A slot joins one list. -/
def State.Joins (s t : State) (n : SlotNo) (L : Shelf) : Prop :=
  (∀ K, K ≠ L → t.shelf K = s.shelf K) ∧ ∃ before after, s.shelf L = before ++ after ∧ t.shelf L = before ++ n :: after

theorem State.Joins.count {L : Shelf} (h : s.Joins t n L) (K : Shelf) (m : SlotNo) :
    (t.shelf K).count m = (s.shelf K).count m + if K = L ∧ m = n then 1 else 0 := by
  obtain ⟨hother, before, after, hs, ht⟩ := h
  by_cases hK : K = L
  · subst hK
    rw [hs, ht]
    simp only [List.count_append, List.count_cons, true_and, beq_iff_eq, eq_comm (a := n)]
    omega
  · rw [hother K hK, if_neg fun e => hK e.1, Nat.add_zero]

theorem State.joins_joinIssue (n : SlotNo) (urgent : Bool) :
    s.Joins (s.joinIssue n urgent) n (if urgent then .level1 else .level0) := by
  refine ⟨fun K hK => ?_, s.shelf (if urgent then .level1 else .level0), [], (List.append_nil _).symm, ?_⟩
  · cases urgent <;> cases K <;> simp_all [State.shelf, State.joinIssue, State.withArb]
  · cases urgent <;> rfl

theorem State.joins_joinAbort (n : SlotNo) : s.Joins (s.joinAbort n) n .abortVisit :=
  ⟨fun K hK => by cases K <;> simp_all [State.shelf, State.joinAbort, State.withArb], _, [], (List.append_nil _).symm, rfl⟩

theorem State.joins_joinPool (n : SlotNo) : s.Joins (s.joinPool n) n .poolWait :=
  ⟨fun K hK => by cases K <;> simp_all [State.shelf, State.joinPool, State.withArb], _, [], (List.append_nil _).symm, rfl⟩

theorem State.joins_joinRecall (n : SlotNo) : s.Joins (s.joinRecall n) n .recalls :=
  ⟨fun K hK => by cases K <;> simp_all [State.shelf, State.joinRecall, State.withArb], _, [], (List.append_nil _).symm, rfl⟩

theorem State.joins_arm (n : SlotNo) (own : Nat) : s.Joins (s.arm n own) n .deadline := by
  obtain ⟨before, after, hins, hsplit, -, -⟩ := insertByRemaining_split s.remaining n own s.park.deadlines
  exact ⟨fun K hK => by cases K <;> simp_all [State.shelf, State.arm, State.withPark], before, after, hsplit, hins⟩

/-- A join concerns the slot that joins alone. -/
theorem State.Joins.agrees {L : Shelf} (h : s.Joins t n L) (hop : t.link.op = s.link.op) (hstations : t.stations = s.stations)
    (hm : m ≠ n) : s.Agrees t m :=
  ⟨fun K => by rw [h.count K m, if_neg fun e => hm e.2, Nat.add_zero], by rw [hop], by rw [hop],
    fun a g => by rw [hstations], fun e => by rw [hop]; exact id⟩

/-- A tag that another slot does not hold is bound to this slot, or freed. -/
theorem State.agrees_setTag {e : Option SlotNo} (hm : e ≠ some m) (hold : s.stations[a].tagMap[g] ≠ some m) :
    s.Agrees (s.setTag a g e) m := by
  refine ⟨fun L => by rw [State.shelf_congr (s := s) (t := s.setTag a g e) rfl rfl], rfl, rfl, fun b g' => ?_, fun _ => id⟩
  by_cases hb : b = a
  · subst hb
    have hget : (s.setTag b g e).stations[b] = { s.stations[b] with tagMap := s.stations[b].tagMap.set g e } :=
      Vector.getElem_set_self b.isLt
    rw [hget]
    by_cases hg : g' = g
    · subst hg
      have hself : (s.stations[b].tagMap.set g' e)[g'] = e := Vector.getElem_set_self g'.isLt
      rw [hself]
      exact ⟨fun h => absurd h hm, fun h => absurd h hold⟩
    · have hother : (s.stations[b].tagMap.set g e)[g'] = s.stations[b].tagMap[g'] :=
        Vector.getElem_set_ne g.isLt g'.isLt fun e => hg (Fin.ext e.symm)
      rw [hother]
  · have hget : (s.setTag a g e).stations[b] = s.stations[b] :=
      Vector.getElem_set_ne a.isLt b.isLt fun e => hb (Fin.ext e.symm)
    rw [hget]

/-- The operation changes for this slot alone. -/
theorem State.agrees_setOp (hcond : op.conducts m = s.link.op.conducts m) (hvis : op.visits m = s.link.op.visits m)
    (hbind : ∀ e, op.binds m e → s.link.op.binds m e) : s.Agrees (s.setOp op) m :=
  ⟨fun L => by rw [State.shelf_congr (s := s) (t := s.setOp op) rfl rfl], hcond, hvis, fun _ _ => Iff.rfl, hbind⟩

/-! ### The invariant from one slot and the others -/

theorem State.Placed.of_agrees (h : s.Placed) (hslots : t.slots = s.slots) (hagree : ∀ m, s.Agrees t m) : t.Placed := by
  intro m
  rw [hslots]
  exact (hagree m).fitsAs (h m)

theorem State.Placed.of_set (h : s.Placed) (hslots : t.slots = s.slots.set n o) (hother : ∀ m, m ≠ n → s.Agrees t m)
    (hn : t.FitsAs n o) : t.Placed := by
  intro m
  rw [hslots]
  by_cases hm : m = n
  · subst hm
    rw [slot_set_self]
    exact hn
  · rw [slot_set_ne hm]
    exact (hother m hm).fitsAs (h m)

/-- A slot goes from a record to another of the same station and tag. -/
theorem State.FitsAs.change (h : s.FitsAs n (some x)) (hlists : ∀ L, (t.shelf L).count n = if y.shelf = some L then 1 else 0)
    (hcond : t.link.op.conducts n = y.st.onExchange) (hvis : t.link.op.visits n = y.st.onVisit)
    (hstations : ∀ (a : StationNo) (g : Tag), t.stations[a].tagMap[g] = some n ↔ s.stations[a].tagMap[g] = some n)
    (hstation : y.station = x.station) (htag : y.st.tag? = x.st.tag?)
    (hbind : ∀ e, t.link.op.binds n e → s.link.op.binds n e) (habort : x.st.isAborting = true → y.st.isAborting = true) :
    t.FitsAs n (some y) := by
  refine ⟨hlists, hcond, hvis, fun a g => ?_, fun e he => ?_⟩
  · rw [hstations, h.tags]
    simp only [Option.some.injEq, exists_eq_left', hstation, htag]
  · obtain ⟨x', hx, hst, ht, hab⟩ := h.cleanup e (hbind e he)
    obtain rfl := Option.some.inj hx
    exact ⟨y, rfl, hstation.trans hst, htag.trans ht, habort hab⟩

/-- What the invariant says of a record in brief: its station, its tag, its list, and its place on the link. -/
structure Exchange.Alike (x y : Exchange) : Prop where
  shelf : y.shelf = x.shelf
  onExchange : y.st.onExchange = x.st.onExchange
  onVisit : y.st.onVisit = x.st.onVisit
  station : y.station = x.station
  tag : y.st.tag? = x.st.tag?
  aborting : y.st.isAborting = x.st.isAborting

theorem State.FitsAs.alike (h : s.FitsAs n (some x)) (hxy : x.Alike y) : s.FitsAs n (some y) :=
  h.change (fun L => (h.lists L).trans (by rw [hxy.shelf]; rfl)) (h.conducts.trans hxy.onExchange.symm)
    (h.visits.trans hxy.onVisit.symm) (fun _ _ => Iff.rfl) hxy.station hxy.tag (fun _ => id) fun hab => hxy.aborting.trans hab

/-- A record changes as an alike one. -/
theorem State.Placed.of_alike (h : s.Placed) (hx : s.slots[n] = some x) (hxy : x.Alike y)
    (hslots : t.slots = s.slots.set n (some y)) (hagree : ∀ m, s.Agrees t m) : t.Placed :=
  h.of_set hslots (fun m _ => hagree m) ((hagree n).fitsAs (State.FitsAs.alike (hx ▸ h n) hxy))

/-! ### What a record that is off the link tells -/

theorem LinkOp.concerns_eq_false (hcond : op.conducts n = false) (hvis : op.visits n = false) : op.concerns n = false := by
  unfold LinkOp.conducts at hcond
  unfold LinkOp.visits at hvis
  cases h : op.isExchange <;> simp_all

theorem State.FitsAs.not_bound (h : s.FitsAs n (some x)) (hx : x.st.isAborting = false) (e : CleanupEntry) :
    ¬ s.link.op.binds n e := by
  intro he
  obtain ⟨y, hy, -, -, hab⟩ := h.cleanup e he
  obtain rfl := Option.some.inj hy
  rw [hx] at hab
  cases hab

theorem State.FitsAs.not_listed (h : s.FitsAs n (some x)) (hx : x.shelf = none) (L : Shelf) : (s.shelf L).count n = 0 := by
  rw [h.lists, Option.bind_some, hx]
  rfl

end Sys2Proof.Machine
end

section
/-!
PROOF. Entries into DONE keep slots, lists, tags and the link in agreement, on the link and off it.
-/
set_option Elab.async false

namespace Sys2Proof.Machine

variable {s t u : State} {n m : SlotNo} {x y z : Exchange} {a : StationNo} {o : Option Exchange} {g : Tag} {w : PollWindow}
  {op : LinkOp}

/-! ### Records that nothing refers to -/

/-- A record of a slot that stands in no list, holds no tag and is off the link: PREPARED and DONE. -/
structure Exchange.Resting (x : Exchange) : Prop where
  shelf : x.shelf = none
  onExchange : x.st.onExchange = false
  onVisit : x.st.onVisit = false
  tag : x.st.tag? = none
  aborting : x.st.isAborting = false

theorem Exchange.resting_prepared (h : x.st = .prepared) : x.Resting := by
  constructor <;> simp [Exchange.shelf, SlotState.onExchange, SlotState.onVisit, SlotState.tag?, SlotState.isAborting, h]

theorem Exchange.resting_done (h : x.st.isDone = true) : x.Resting := by
  cases hst : x.st with
  | done f st u res =>
    constructor <;> simp [Exchange.shelf, SlotState.onExchange, SlotState.onVisit, SlotState.tag?, SlotState.isAborting, hst]
  | _ => simp [hst, SlotState.isDone] at h

theorem State.FitsAs.resting (h : s.FitsAs n none) (hx : x.Resting) : s.FitsAs n (some x) := by
  refine ⟨fun L => ?_, ?_, ?_, fun a g => ?_, fun e he => ?_⟩
  · rw [h.lists, Option.bind_some, hx.shelf]
    rfl
  · rw [h.conducts, Option.any_some, hx.onExchange]
    rfl
  · rw [h.visits, Option.any_some, hx.onVisit]
    rfl
  · rw [h.tags]
    simp [hx.tag]
  · obtain ⟨y, hy, -⟩ := h.cleanup e he
    cases hy

theorem State.FitsAs.forget (h : s.FitsAs n (some x)) (hx : x.Resting) : s.FitsAs n none := by
  refine ⟨fun L => ?_, ?_, ?_, fun a g => ?_, fun e he => absurd he (h.not_bound hx.aborting e)⟩
  · rw [h.not_listed hx.shelf]
    rfl
  · rw [h.conducts, Option.any_some, hx.onExchange]
    rfl
  · rw [h.visits, Option.any_some, hx.onVisit]
    rfl
  · rw [h.tags]
    simp [hx.tag]

/-- Nothing refers to a slot. -/
theorem State.fitsAs_none (hlists : ∀ L, (s.shelf L).count n = 0) (hcond : s.link.op.conducts n = false)
    (hvis : s.link.op.visits n = false) (htags : ∀ (a : StationNo) (g : Tag), s.stations[a].tagMap[g] ≠ some n)
    (hbind : ∀ e, ¬ s.link.op.binds n e) : s.FitsAs n none :=
  ⟨fun L => hlists L, hcond, hvis, fun a g => ⟨fun h => absurd h (htags a g), by simp⟩, fun e he => absurd he (hbind e)⟩

/-! ### Operations on no slot -/

theorem LinkOp.not_binds (h : ∀ w, op ≠ .poll w) (n : SlotNo) (e : CleanupEntry) : ¬ op.binds n e :=
  fun ⟨w, hop, _⟩ => h w hop

/-- The link falls idle, and the slot was not on it. -/
theorem State.agrees_endOp (hcond : s.link.op.conducts m = false) (hvis : s.link.op.visits m = false) :
    s.Agrees s.endOp m :=
  ⟨fun L => by rw [State.shelf_congr (s := s) (t := s.endOp) rfl rfl], hcond.symm, hvis.symm, fun _ _ => Iff.rfl,
    fun e he => absurd he (LinkOp.not_binds (by simp) m e)⟩

/-! ### Entries into DONE (R25) -/

theorem LinkOp.unbind_concerns (h : m ≠ n) : (op.unbind n).concerns m = op.concerns m := by
  cases op with
  | poll w =>
    simp only [LinkOp.unbind, LinkOp.concerns]
    cases w.phase <;> cases w.cleanup <;> simp only [List.map_nil, List.map_cons]
    split
    · next e =>
      rw [e]
      simpa using fun e' => h e'.symm
    · rfl
  | _ => rfl

theorem LinkOp.unbind_isExchange : (op.unbind n).isExchange = op.isExchange := by
  cases op <;> rfl

theorem LinkOp.unbind_conducts (m : SlotNo) : (op.unbind n).conducts m = op.conducts m := by
  cases op <;> rfl

theorem LinkOp.unbind_visits (h : m ≠ n) : (op.unbind n).visits m = op.visits m := by
  rw [LinkOp.visits, LinkOp.visits, LinkOp.unbind_isExchange, LinkOp.unbind_concerns h]

theorem LinkOp.binds_of_unbind {e : CleanupEntry} (he : (op.unbind n).binds m e) : m ≠ n ∧ op.binds m e := by
  obtain ⟨w', hop, hmem, hslot⟩ := he
  cases op with
  | poll w =>
    obtain rfl := LinkOp.poll.inj hop
    obtain ⟨e', he', rfl⟩ := List.mem_map.mp hmem
    split at hslot
    · cases hslot
    · next hne =>
      rw [if_neg hne]
      exact ⟨fun e => hne (e ▸ hslot), w, rfl, he', hslot⟩
  | _ => cases hop

/-- An entry bound to a slot that ends is unbound, so no cleanup serves the slot (R108). -/
theorem LinkOp.unbind_visits_self (h : ∀ limit, op ≠ .abortVisit n limit) : (op.unbind n).visits n = false := by
  cases op with
  | poll w =>
    simp only [LinkOp.visits, LinkOp.unbind, LinkOp.isExchange, LinkOp.concerns]
    cases w.phase <;> cases w.cleanup <;> simp only [List.map_nil, List.map_cons, Bool.and_false]
    split
    · rfl
    · next hne => simpa using hne
  | abortVisit k limit =>
    simp only [LinkOp.visits, LinkOp.unbind, LinkOp.isExchange, LinkOp.concerns, Bool.not_false, Bool.true_and,
      beq_eq_false_iff_ne]
    rintro rfl
    exact h limit rfl
  | _ => rfl

theorem State.agrees_freeTagOf (hn : s.FitsAs n (some x)) (hm : m ≠ n) : s.Agrees (s.freeTagOf x) m := by
  unfold State.freeTagOf
  split
  · next g hg =>
    have hheld : s.stations[x.station].tagMap[g] = some n := (hn.tags _ _).mpr ⟨x, rfl, rfl, hg⟩
    exact State.agrees_setTag (by simp) (by rw [hheld]; simpa using fun e => hm e.symm)
  · exact .refl s m

theorem State.beforeDone_agrees (hn : s.FitsAs n (some x)) (hm : m ≠ n) : s.Agrees (s.beforeDone n x) m := by
  have hfreed := State.agrees_freeTagOf hn hm
  have hgiven : s.Agrees (if x.isConnectedRead then (s.freeTagOf x).giveUpReserved else s.freeTagOf x) m := by
    split
    · refine hfreed.trans (State.agrees_of_same ?_ ?_ ?_ ?_ m) <;> rfl
    · exact hfreed
  refine hgiven.trans ((State.agrees_leaveLists hm).trans ⟨fun L => ?_, ?_, ?_, fun _ _ => Iff.rfl, fun e he => ?_⟩)
  · rw [State.shelf_congr] <;> rfl
  · exact LinkOp.unbind_conducts m
  · exact LinkOp.unbind_visits hm
  · exact (LinkOp.binds_of_unbind he).2

theorem State.beforeDone_op : (s.beforeDone n x).link.op = s.link.op.unbind n := by
  unfold State.beforeDone
  cases x.isConnectedRead <;> simp [State.withLink]

/-- No tag is bound to a slot that is about to enter DONE. -/
theorem State.beforeDone_untagged (hn : s.FitsAs n (some x)) (a : StationNo) (g : Tag) :
    (s.beforeDone n x).stations[a].tagMap[g] ≠ some n := by
  have hstations : (s.beforeDone n x).stations = (s.freeTagOf x).stations := by
    unfold State.beforeDone
    cases x.isConnectedRead <;> rfl
  rw [hstations, State.freeTagOf_tagMap]
  split
  · simp
  · next hno =>
    intro hg
    obtain ⟨y, hy, hst, ht⟩ := (hn.tags a g).mp hg
    obtain rfl := Option.some.inj hy
    exact hno ⟨hst, ht⟩

/-- Nothing refers to a slot that is about to enter DONE, if it is neither connected nor visited. -/
theorem State.beforeDone_fitsAs (hn : s.FitsAs n (some x)) (hcond : s.link.op.conducts n = false)
    (hvisit : ∀ limit, s.link.op ≠ .abortVisit n limit) : (s.beforeDone n x).FitsAs n none := by
  refine State.fitsAs_none (fun L => State.leaveLists_count L) ?_ ?_ (State.beforeDone_untagged hn) fun e he => ?_
  · rw [State.beforeDone_op, LinkOp.unbind_conducts]
    exact hcond
  · rw [State.beforeDone_op]
    exact LinkOp.unbind_visits_self hvisit
  · rw [State.beforeDone_op] at he
    exact (LinkOp.binds_of_unbind he).1 rfl

theorem State.afterDone_agrees {f : FinalStatus} {st : Option Byte} {res : List Byte} (m : SlotNo) :
    (s.beforeDone n y).Agrees (s.afterDone n y f st res) m := by
  rw [State.afterDone_eq_beforeDone]
  refine State.agrees_of_same ?_ ?_ ?_ ?_ m <;> rfl

theorem State.afterDone_slots {f : FinalStatus} {st : Option Byte} {res : List Byte} :
    (s.afterDone n x f st res).slots = s.slots.set n (some { x with st := .done f st true res }) := rfl

theorem State.afterDone_link {f : FinalStatus} {st : Option Byte} {res : List Byte} :
    (s.afterDone n x f st res).link = { s.link with op := s.link.op.unbind n } := by
  unfold State.afterDone LinkOp.unbind
  cases s.link.op <;> rfl

/-- A slot that is off the link, or served by a cleanup, enters DONE. -/
theorem State.Placed.enterDone (h : s.Placed) (hx : s.slots[n] = some x) (hcond : x.st.onExchange = false)
    (hvisit : ∀ limit, s.link.op ≠ .abortVisit n limit) (f : FinalStatus) (st : Option Byte) (res : List Byte) :
    (s.enterDone n f st res).Placed := by
  have hn : s.FitsAs n (some x) := hx ▸ h n
  rw [State.enterDone_of_some hx]
  have hbefore := State.beforeDone_fitsAs hn (hn.conducts.trans hcond) hvisit
  exact h.of_set State.afterDone_slots (fun m hm => (State.beforeDone_agrees hn hm).trans (State.afterDone_agrees m))
    (((State.afterDone_agrees n).fitsAs hbefore).resting (Exchange.resting_done rfl))

/-- A link operation that serves the slot alone, as an exchange or an abort visit does. -/
def LinkOp.IsFor (op : LinkOp) (n : SlotNo) : Prop := (∃ c, op = .exchange c ∧ c.slot = n) ∨ ∃ limit, op = .abortVisit n limit

theorem LinkOp.IsFor.other (h : op.IsFor n) (hm : m ≠ n) : op.conducts m = false ∧ op.visits m = false := by
  rcases h with ⟨c, rfl, rfl⟩ | ⟨limit, rfl⟩ <;>
    simp [LinkOp.conducts, LinkOp.visits, LinkOp.isExchange, LinkOp.concerns, hm.symm]

/-- The slot of the exchange or of the abort visit on the link enters DONE, and the link falls idle. -/
theorem State.Placed.finish (h : s.Placed) (hx : s.slots[n] = some x) (hop : s.link.op.IsFor n) (f : FinalStatus)
    (st : Option Byte) (res : List Byte) : (s.finish n f st res).Placed := by
  have hn : s.FitsAs n (some x) := hx ▸ h n
  rw [State.finish, State.enterDone_of_some hx]
  refine h.of_set (n := n) (o := some { x with st := .done f st true (if x.op = .control then res else []) }) rfl
    (fun m hm => ?_) (State.FitsAs.resting (State.fitsAs_none ?_ rfl rfl ?_ ?_) (Exchange.resting_done rfl))
  · have hbefore := (State.beforeDone_agrees hn hm).trans
      (State.afterDone_agrees (f := f) (st := st) (res := if x.op = .control then res else []) m)
    obtain ⟨hcond, hvis⟩ := hop.other hm
    exact hbefore.trans (State.agrees_endOp (hbefore.conducts.trans hcond) (hbefore.visits.trans hvis))
  · intro L
    have hlists := (State.afterDone_agrees (s := s) (n := n) (y := x) (f := f) (st := st)
      (res := if x.op = .control then res else []) n).lists L
    exact hlists.trans (State.leaveLists_count L)
  · intro a g hg
    exact State.beforeDone_untagged hn a g (((State.afterDone_agrees (s := s) (n := n) (y := x) (f := f) (st := st)
      (res := if x.op = .control then res else []) n).tags a g).mp hg)
  · exact fun e => LinkOp.not_binds (by simp) n e

theorem State.agrees_miss (a : StationNo) (m : SlotNo) : s.Agrees (s.miss a) m := by
  have hcounted := State.agrees_withStation (s := s) (a := a) (fun st =>
    { st with missCount := if st.missCount < Config.missLimit then st.missCount + 1 else st.missCount }) rfl m
  have hsilent : s.Agrees (((s.withStation a fun st =>
      { st with missCount := if st.missCount < Config.missLimit then st.missCount + 1 else st.missCount }).withStation a
      fun st => { st with state := .silent }).report (.station a) .silent .absent) m :=
    hcounted.trans ((State.agrees_withStation _ rfl m).trans (State.agrees_report _ _ _ m))
  unfold State.miss
  dsimp only
  split
  · split
    · exact hsilent
    · exact hsilent
    · exact hcounted
  · exact hcounted

theorem State.Agrees.endOp (h : s.Agrees t m) : s.endOp.Agrees t.endOp m :=
  ⟨h.lists, rfl, rfl, h.tags, fun _ => id⟩

/-- A miss is counted before the link falls idle. -/
theorem State.Placed.finishMissed (h : s.Placed) (hx : s.slots[n] = some x) (hop : s.link.op.IsFor n) (f : FinalStatus)
    (a : StationNo) : (s.finishMissed n f a).Placed :=
  (h.finish hx hop f none []).of_agrees (t := s.finishMissed n f a) (State.miss_slots _ a) fun m =>
    (State.agrees_miss (s := s.enterDone n f none []) a m).endOp

end Sys2Proof.Machine
end

section
/-!
PROOF. The turn: an operation that works with a station says which (`served`), and the head then sends to it or it holds the
turn; every other operation stands apart.
-/
set_option Elab.async false

namespace Sys2Proof.Machine

variable {s t u : State} {n m : SlotNo} {x y z : Exchange} {a : StationNo} {l : LinkEngine} {w : PollWindow} {c : Connection}
  {op : LinkOp} {f : Frame} {k : Carried}

/-! ### The station an operation works with -/

/-- The station an operation works with, the kinds of frame the head may send to it, and whether it may hold the turn. -/
structure Service where
  station : StationNo
  sends : FrameKind → Bool
  hears : Bool

/-- The phase and the ABORT sent mark of a connection agree, and the op has the phase (R51, R68). -/
def Connection.sound (c : Connection) (op : Op) : Bool := c.abortSent == (c.phase == .abortSent) && c.phase.of op

/-- What a connection with a station is in the middle of. -/
def Connection.service (c : Connection) (a : StationNo) : Service := ⟨a, c.phase.sends, c.phase != .sending⟩

/-- What ABORT to a station is about. -/
def abortService (a : StationNo) : Service := ⟨a, (· == .abort), true⟩

/-- What the operation does with the slot records it is about. -/
def LinkOp.service (op : LinkOp) (slots : Vector (Option Exchange) 32) : Option Service :=
  match op with
  | .exchange c => slots[c.slot].bind fun x => if c.sound x.op then some (c.service x.station) else none
  | .abortVisit n _ => slots[n].map fun x => abortService x.station
  | .poll w =>
    match w.phase, w.cleanup with
    | .cleaning, e :: _ => some (abortService e.station)
    | _, _ => none
  | _ => none

/-- The service of the running operation. -/
abbrev State.served (s : State) : Option Service := s.link.op.service s.slots

/-- The head sends to the station served, or the station holds the turn. -/
def LinkEngine.serves (l : LinkEngine) (v : Service) : Bool := l.sendsTo v.station v.sends || (l.heldBy v.station && v.hears)

/-- The turn of an operation that works with no one station. -/
def LinkEngine.apart (l : LinkEngine) : Bool :=
  match l.op with
  | .idle => l.quiet
  | .resetBreak => l.quiet
  | .resetQuiet => l.quiet
  | .parking => l.headSends (· == .parked)
  | .poll w =>
    match w.phase, w.cleanup with
    | .sending, [] => l.headSends (· == .poll)
    | .listening, _ => l.slotOpen w.left
    | _, _ => false
  | _ => false

theorem State.turnFits_eq : s.turnFits = (s.served.any s.link.serves || s.link.apart) := by
  unfold State.turnFits State.served LinkOp.service LinkEngine.apart
  cases hop : s.link.op with
  | exchange c =>
    cases hx : s.slots[c.slot] with
    | none => simp [hx]
    | some x =>
      simp only [hx, Option.bind_some, Bool.or_false]
      by_cases hsound : c.sound x.op = true
      · obtain ⟨hmark, hof⟩ := Bool.and_eq_true_iff.mp hsound
        simp only [hsound, if_true, Option.any_some, hmark, hof, Bool.true_and]
        rfl
      · rw [if_neg hsound, Option.any_none, ← Bool.and_assoc]
        rw [Bool.not_eq_true] at hsound
        exact Bool.and_eq_false_iff.mpr (.inl hsound)
  | abortVisit n limit => cases hx : s.slots[n] <;> simp [hx, LinkEngine.serves, abortService]
  | poll w =>
    cases hphase : w.phase <;> cases hclean : w.cleanup <;>
      simp [hphase, hclean, LinkEngine.serves, abortService]
  | _ => simp

theorem State.turnFits_of_served {v : Service} (hv : s.served = some v) (h : s.link.serves v = true) : s.turnFits = true := by
  rw [State.turnFits_eq, hv, Option.any_some, h, Bool.true_or]

theorem State.turnFits_of_apart (h : s.link.apart = true) : s.turnFits = true := by
  rw [State.turnFits_eq, h, Bool.or_true]

theorem State.turnFits_cases (h : s.turnFits = true) :
    (∃ v, s.served = some v ∧ s.link.serves v = true) ∨ s.link.apart = true := by
  rw [State.turnFits_eq, Bool.or_eq_true, Option.any_eq_true] at h
  exact h

/-! ### What the link tells of its operation -/

theorem LinkEngine.headSends_iff {ok : FrameKind → Bool} : l.headSends ok = true ↔
    l.turn = .head ∧ l.replyTimer = none ∧ ∃ f, l.sending = some f ∧ ok f.kind = true := by
  unfold LinkEngine.headSends
  cases l.sending <;> simp [and_assoc]

theorem LinkEngine.sendsTo_iff {ok : FrameKind → Bool} : l.sendsTo a ok = true ↔
    l.turn = .head ∧ l.replyTimer = none ∧ ∃ f, l.sending = some f ∧ ok f.kind = true ∧ f.body.address = addressOf a := by
  unfold LinkEngine.sendsTo
  rw [Bool.and_eq_true, LinkEngine.headSends_iff]
  cases l.sending <;> simp [and_assoc]

theorem LinkEngine.heldBy_iff : l.heldBy a = true ↔
    l.turn = .station a ∧ l.replyTimer.isSome = true ∧ l.sending = none ∧ l.lateOpen = false := by
  simp [LinkEngine.heldBy, and_assoc]

theorem LinkEngine.quiet_iff : l.quiet = true ↔
    l.turn = .nobody ∧ l.replyTimer = none ∧ l.sending = none ∧ l.lateOpen = false := by
  simp [LinkEngine.quiet, and_assoc]

theorem LinkEngine.slotOpen_iff {left : List StationNo} : l.slotOpen left = true ↔
    l.replyTimer = none ∧ l.sending = none ∧ l.lateOpen = false ∧ ∃ b rest, left = b :: rest ∧ l.turn = .replySlot b := by
  unfold LinkEngine.slotOpen
  cases l.turn <;> cases left <;> simp [and_assoc]

theorem LinkEngine.serves_cases {v : Service} (h : l.serves v = true) :
    l.sendsTo v.station v.sends = true ∨ (l.heldBy v.station = true ∧ v.hears = true) := by
  rwa [LinkEngine.serves, Bool.or_eq_true, Bool.and_eq_true] at h

/-- An operation in which no frame passes: none, or a link reset. -/
def LinkOp.rests (op : LinkOp) : Bool := op == .idle || op.isResetting

/-- An operation apart: nobody holds the turn, the head sends PARKED or POLL, or a reply slot is open. -/
theorem LinkEngine.apart_iff : l.apart = true ↔
    (l.quiet = true ∧ l.op.rests = true) ∨ (l.headSends (· == .parked) = true ∧ l.op = .parking) ∨
      ∃ w, l.op = .poll w ∧ ((l.headSends (· == .poll) = true ∧ w.phase = .sending ∧ w.cleanup = []) ∨
        (l.slotOpen w.left = true ∧ w.phase = .listening)) := by
  unfold LinkEngine.apart LinkOp.rests LinkOp.isResetting
  cases hop : l.op with
  | poll w => cases hphase : w.phase <;> cases hclean : w.cleanup <;> simp [hphase, hclean]
  | _ => simp

theorem LinkEngine.apart_cases (h : l.apart = true) :
    l.quiet = true ∨ (l.headSends (· == .parked) = true ∧ l.op = .parking) ∨
      ∃ w, l.op = .poll w ∧ ((l.headSends (· == .poll) = true ∧ w.phase = .sending ∧ w.cleanup = []) ∨
        (l.slotOpen w.left = true ∧ w.phase = .listening)) := (LinkEngine.apart_iff.mp h).imp_left And.left

theorem LinkEngine.apart_replyTimer (h : l.apart = true) : l.replyTimer = none := by
  rcases LinkEngine.apart_cases h with h | ⟨h, -⟩ | ⟨w, -, ⟨h, -, -⟩ | ⟨h, -⟩⟩
  · exact (LinkEngine.quiet_iff.mp h).2.1
  · exact (LinkEngine.headSends_iff.mp h).2.1
  · exact (LinkEngine.headSends_iff.mp h).2.1
  · exact (LinkEngine.slotOpen_iff.mp h).1

theorem LinkEngine.apart_turn (h : l.apart = true) : l.turn ≠ .station a := by
  rcases LinkEngine.apart_cases h with h | ⟨h, -⟩ | ⟨w, -, ⟨h, -, -⟩ | ⟨h, -⟩⟩
  · simp [(LinkEngine.quiet_iff.mp h).1]
  · simp [(LinkEngine.headSends_iff.mp h).1]
  · simp [(LinkEngine.headSends_iff.mp h).1]
  · obtain ⟨-, -, -, b, rest, -, hturn⟩ := LinkEngine.slotOpen_iff.mp h
    simp [hturn]

theorem LinkEngine.apart_sending (h : l.apart = true) (hf : l.sending = some f) : f.kind = .parked ∨ f.kind = .poll := by
  have hkind {ok : FrameKind → Bool} (h : l.headSends ok = true) : ok f.kind = true := by
    obtain ⟨-, -, g, hg, hok⟩ := LinkEngine.headSends_iff.mp h
    obtain rfl := Option.some.inj (hf.symm.trans hg)
    exact hok
  rcases LinkEngine.apart_cases h with h | ⟨h, -⟩ | ⟨w, -, ⟨h, -, -⟩ | ⟨h, -⟩⟩
  · simp [(LinkEngine.quiet_iff.mp h).2.2.1] at hf
  · exact .inl (by simpa using hkind h)
  · exact .inr (by simpa using hkind h)
  · simp [(LinkEngine.slotOpen_iff.mp h).2.1] at hf

/-- The reply timer runs, or a station holds the turn: it is the station served. -/
theorem State.turnFits_held (h : s.turnFits = true) (hheld : s.link.replyTimer ≠ none ∨ ∃ a, s.link.turn = .station a) :
    ∃ v, s.served = some v ∧ s.link.heldBy v.station = true ∧ v.hears = true := by
  rcases State.turnFits_cases h with ⟨v, hv, hserves⟩ | hapart
  · rcases LinkEngine.serves_cases hserves with hsends | hholds
    · obtain ⟨hturn, htimer, -⟩ := LinkEngine.sendsTo_iff.mp hsends
      rcases hheld with hheld | ⟨a, ha⟩
      · exact absurd htimer hheld
      · cases hturn.symm.trans ha
    · exact ⟨v, hv, hholds⟩
  · rcases hheld with hheld | ⟨a, ha⟩
    · exact absurd (LinkEngine.apart_replyTimer hapart) hheld
    · exact absurd ha (LinkEngine.apart_turn hapart)

/-- The head sends another frame than PARKED or POLL: it goes to the station served. -/
theorem State.turnFits_sends (h : s.turnFits = true) (hf : s.link.sending = some f) (hparked : f.kind ≠ .parked)
    (hpoll : f.kind ≠ .poll) : ∃ v, s.served = some v ∧ v.sends f.kind = true ∧ f.body.address = addressOf v.station := by
  rcases State.turnFits_cases h with ⟨v, hv, hserves⟩ | hapart
  · rcases LinkEngine.serves_cases hserves with hsends | ⟨hholds, -⟩
    · obtain ⟨-, -, g, hg, hok, haddr⟩ := LinkEngine.sendsTo_iff.mp hsends
      obtain rfl := Option.some.inj (hf.symm.trans hg)
      exact ⟨v, hv, hok, haddr⟩
    · simp [(LinkEngine.heldBy_iff.mp hholds).2.2.1] at hf
  · rcases LinkEngine.apart_sending hapart hf with h | h
    · exact absurd h hparked
    · exact absurd h hpoll

/-- A reply slot is open: a poll window listens. -/
theorem State.turnFits_replySlot (h : s.turnFits = true) (hturn : s.link.turn = .replySlot a) :
    ∃ w, s.link.op = .poll w ∧ w.phase = .listening ∧ s.link.slotOpen w.left = true := by
  rcases State.turnFits_cases h with ⟨v, hv, hserves⟩ | hapart
  · rcases LinkEngine.serves_cases hserves with hsends | ⟨hholds, -⟩
    · cases (LinkEngine.sendsTo_iff.mp hsends).1.symm.trans hturn
    · cases (LinkEngine.heldBy_iff.mp hholds).1.symm.trans hturn
  · rcases LinkEngine.apart_cases hapart with h | ⟨h, -⟩ | ⟨w, hw, ⟨h, -, -⟩ | ⟨hopen, hphase⟩⟩
    · cases (LinkEngine.quiet_iff.mp h).1.symm.trans hturn
    · cases (LinkEngine.headSends_iff.mp h).1.symm.trans hturn
    · cases (LinkEngine.headSends_iff.mp h).1.symm.trans hturn
    · exact ⟨w, hw, hphase, hopen⟩

/-- POLL is being sent: no reply slot is open yet. -/
theorem State.turnFits_poll (h : s.turnFits = true) (hop : s.link.op = .poll w) (hf : s.link.sending = some f)
    (hkind : f.kind = .poll) : w.phase = .sending := by
  rcases State.turnFits_cases h with ⟨v, hv, hserves⟩ | hapart
  · have habort : v = abortService v.station := by
      rw [State.served, hop, LinkOp.service] at hv
      split at hv
      · obtain rfl := Option.some.inj hv
        rfl
      · cases hv
    rcases LinkEngine.serves_cases hserves with hsends | ⟨hholds, -⟩
    · obtain ⟨-, -, g, hg, hok, -⟩ := LinkEngine.sendsTo_iff.mp hsends
      obtain rfl := Option.some.inj (hf.symm.trans hg)
      rw [habort, hkind] at hok
      cases hok
    · simp [(LinkEngine.heldBy_iff.mp hholds).2.2.1] at hf
  · rcases LinkEngine.apart_cases hapart with h | ⟨-, hparking⟩ | ⟨w', hw, ⟨-, hphase, -⟩ | ⟨h, -⟩⟩
    · simp [(LinkEngine.quiet_iff.mp h).2.2.1] at hf
    · cases hparking.symm.trans hop
    · obtain rfl := LinkOp.poll.inj (hop.symm.trans hw)
      exact hphase
    · simp [(LinkEngine.slotOpen_iff.mp h).2.1] at hf

/-! ### What keeps the turn -/

/-- The slot records the operation is about keep their ops and their stations. -/
def State.KeepsServed (s t : State) : Prop :=
  ∀ n x, s.link.op.concerns n = true → s.slots[n] = some x → ∃ y, t.slots[n] = some y ∧ y.op = x.op ∧ y.station = x.station

theorem State.keepsServed_of_slots (h : t.slots = s.slots) : s.KeepsServed t :=
  fun _ x _ hx => ⟨x, by rw [h]; exact hx, rfl, rfl⟩

theorem State.KeepsServed.of_set {o : Option Exchange} (hslots : t.slots = s.slots.set n o)
    (h : s.link.op.concerns n = true → ∀ x, s.slots[n] = some x → ∃ y, o = some y ∧ y.op = x.op ∧ y.station = x.station) :
    s.KeepsServed t := by
  intro m x hm hx
  by_cases hmn : m = n
  · subst hmn
    obtain ⟨y, rfl, hy⟩ := h hm x hx
    exact ⟨y, by rw [hslots]; exact slot_set_self, hy⟩
  · exact ⟨x, by rw [hslots, slot_set_ne hmn]; exact hx, rfl, rfl⟩

theorem State.KeepsServed.service {v : Service} (h : s.KeepsServed t) (hv : s.served = some v) :
    s.link.op.service t.slots = some v := by
  unfold State.served LinkOp.service at hv
  unfold LinkOp.service
  cases hop : s.link.op with
  | exchange c =>
    simp only [hop, Option.bind_eq_some_iff] at hv ⊢
    obtain ⟨x, hx, hsound⟩ := hv
    obtain ⟨y, hy, hyop, hystation⟩ := h c.slot x (by simp [LinkOp.concerns, hop]) hx
    exact ⟨y, hy, by rw [hyop, hystation]; exact hsound⟩
  | abortVisit n limit =>
    simp only [hop, Option.map_eq_some_iff] at hv ⊢
    obtain ⟨x, hx, hservice⟩ := hv
    obtain ⟨y, hy, -, hystation⟩ := h n x (by simp [LinkOp.concerns, hop]) hx
    exact ⟨y, hy, by rw [hystation]; exact hservice⟩
  | poll w => simpa [hop] using hv
  | _ => simp [hop] at hv

theorem LinkOp.service_unbind (slots : Vector (Option Exchange) 32) : (op.unbind n).service slots = op.service slots := by
  cases op with
  | poll w =>
    simp only [LinkOp.unbind, LinkOp.service]
    cases w.phase <;> cases w.cleanup <;> simp only [List.map_nil, List.map_cons]
    split <;> rfl
  | _ => rfl

theorem LinkOp.rests_unbind : (op.unbind n).rests = op.rests := by
  cases op <;> rfl

theorem LinkEngine.apart_unbind (h : l.apart = true) : ({ l with op := l.op.unbind n } : LinkEngine).apart = true := by
  rcases LinkEngine.apart_iff.mp h with ⟨hquiet, hrests⟩ | ⟨hsends, hop⟩ | ⟨w, hop, hw⟩
  · refine LinkEngine.apart_iff.mpr (.inl ⟨hquiet, ?_⟩)
    simpa only [LinkOp.rests_unbind] using hrests
  · exact LinkEngine.apart_iff.mpr (.inr (.inl ⟨hsends, by simp only [hop]; rfl⟩))
  · refine LinkEngine.apart_iff.mpr (.inr (.inr ⟨_, congrArg (LinkOp.unbind · n) hop, ?_⟩))
    rcases hw with ⟨hsends, hphase, hclean⟩ | ⟨hopen, hphase⟩
    · exact .inl ⟨hsends, hphase, by rw [hclean]; rfl⟩
    · exact .inr ⟨hopen, hphase⟩

/-- The link is as it was, with entries of the cleanup list unbound at most. -/
theorem State.turnFits_of_kept (h : s.turnFits = true)
    (hlink : t.link = s.link ∨ ∃ n, t.link = { s.link with op := s.link.op.unbind n }) (hkeeps : s.KeepsServed t) :
    t.turnFits = true := by
  rcases State.turnFits_cases h with ⟨v, hv, hserves⟩ | hapart
  · have hv' := hkeeps.service hv
    rcases hlink with hlink | ⟨n, hlink⟩
    · exact State.turnFits_of_served (by rw [State.served, hlink]; exact hv') (by rw [hlink]; exact hserves)
    · exact State.turnFits_of_served (by rw [State.served, hlink]; exact (LinkOp.service_unbind _).trans hv')
        (by rw [hlink]; exact hserves)
  · rcases hlink with hlink | ⟨n, hlink⟩
    · exact State.turnFits_of_apart (hlink ▸ hapart)
    · exact State.turnFits_of_apart (by rw [hlink]; exact LinkEngine.apart_unbind hapart)

/-- The late mark is cleared, or set with a frame being sent. -/
theorem LinkEngine.serves_late {b : Bool} {v : Service} (h : l.serves v = true) (hb : b = true → l.sending.isSome = true) :
    ({ l with lateOpen := b } : LinkEngine).serves v = true := by
  rcases LinkEngine.serves_cases h with h | ⟨h, hv⟩
  · rw [LinkEngine.serves, Bool.or_eq_true]
    exact .inl h
  · obtain ⟨hturn, htimer, hnone, -⟩ := LinkEngine.heldBy_iff.mp h
    have hb : b = false := by
      cases b with
      | false => rfl
      | true => simp [hnone] at hb
    rw [LinkEngine.serves, Bool.or_eq_true, Bool.and_eq_true]
    exact .inr ⟨LinkEngine.heldBy_iff.mpr ⟨hturn, htimer, hnone, hb⟩, hv⟩

theorem LinkEngine.apart_late {b : Bool} (h : l.apart = true) (hb : b = true → l.sending.isSome = true) :
    ({ l with lateOpen := b } : LinkEngine).apart = true := by
  have hoff (hnone : l.sending = none) : b = false := by
    cases b with
    | false => rfl
    | true => simp [hnone] at hb
  rcases LinkEngine.apart_iff.mp h with ⟨hquiet, hrests⟩ | hparking | ⟨w, hop, hsends | ⟨hopen, hphase⟩⟩
  · obtain ⟨hturn, htimer, hnone, -⟩ := LinkEngine.quiet_iff.mp hquiet
    exact LinkEngine.apart_iff.mpr (.inl ⟨LinkEngine.quiet_iff.mpr ⟨hturn, htimer, hnone, hoff hnone⟩, hrests⟩)
  · exact LinkEngine.apart_iff.mpr (.inr (.inl hparking))
  · exact LinkEngine.apart_iff.mpr (.inr (.inr ⟨w, hop, .inl hsends⟩))
  · obtain ⟨htimer, hnone, -, hleft⟩ := LinkEngine.slotOpen_iff.mp hopen
    exact LinkEngine.apart_iff.mpr (.inr (.inr ⟨w, hop, .inr
      ⟨LinkEngine.slotOpen_iff.mpr ⟨htimer, hnone, hoff hnone, hleft⟩, hphase⟩⟩))

theorem State.turnFits_late {b : Bool} (h : s.turnFits = true) (hb : b = true → s.link.sending.isSome = true)
    (hlink : t.link = { s.link with lateOpen := b }) (hslots : t.slots = s.slots) : t.turnFits = true := by
  have hserved : t.served = s.served := by rw [State.served, hlink, hslots]
  rcases State.turnFits_cases h with ⟨v, hv, hserves⟩ | hapart
  · exact State.turnFits_of_served (hserved.trans hv) (by rw [hlink]; exact LinkEngine.serves_late hserves hb)
  · exact State.turnFits_of_apart (by rw [hlink]; exact LinkEngine.apart_late hapart hb)

end Sys2Proof.Machine
end

section
/-!
PROOF. Changes of a slot that is off the link, and the grants of the arbiter, keep slots, lists, tags and the link in
agreement.
-/
set_option Elab.async false

namespace Sys2Proof.Machine

variable {s t u : State} {n m : SlotNo} {x y z : Exchange} {a : StationNo} {o : Option Exchange} {g : Tag} {w : PollWindow}
  {op : LinkOp} {f : Frame} {k : Carried} {L : Shelf}

theorem State.consistent.placed (h : s.consistent) : s.Placed := (State.consistent_iff.mp h).1

theorem State.consistent.turn (h : s.consistent) : s.turnFits = true := (State.consistent_iff.mp h).2

theorem State.Placed.consistent (h : s.Placed) (ht : s.turnFits = true) : s.consistent := State.consistent_iff.mpr ⟨h, ht⟩

/-! ### Changes that touch no list, no tag and no operation -/

theorem State.consistent.of_core (h : s.consistent) (hslots : t.slots = s.slots) (hshelf : ∀ L, t.shelf L = s.shelf L)
    (hlink : t.link = s.link) (htags : ∀ a : StationNo, t.stations[a].tagMap = s.stations[a].tagMap) : t.consistent :=
  (h.placed.of_agrees hslots (State.agrees_of_core hshelf (by rw [hlink]) htags)).consistent
    (State.turnFits_of_kept h.turn (.inl hlink) (State.keepsServed_of_slots hslots))

theorem State.consistent.of_same (h : s.consistent) (hslots : t.slots = s.slots) (harb : t.arb = s.arb)
    (hpark : t.park = s.park) (hlink : t.link = s.link) (hstations : t.stations = s.stations) : t.consistent :=
  h.of_core hslots (State.shelf_congr harb hpark) hlink fun a => by rw [hstations]

/-- The link and the slots are as they were, and the lists and the tags say the same. -/
theorem State.consistent.of_agrees (h : s.consistent) (hslots : t.slots = s.slots) (hlink : t.link = s.link)
    (hagree : ∀ m, s.Agrees t m) : t.consistent :=
  (h.placed.of_agrees hslots hagree).consistent (State.turnFits_of_kept h.turn (.inl hlink) (State.keepsServed_of_slots hslots))

theorem State.consistent.withStation (h : s.consistent) (f : Station → Station)
    (hf : (f s.stations[a]).tagMap = s.stations[a].tagMap) : (s.withStation a f).consistent :=
  h.of_agrees rfl rfl (State.agrees_withStation f hf)

theorem State.consistent.report (h : s.consistent) (src : Source) (k : EventKind) (d : Detail) : (s.report src k d).consistent :=
  h.of_same (by simp) (by simp) (by simp) (by simp) (by simp)

theorem State.consistent.miss (h : s.consistent) (a : StationNo) : (s.miss a).consistent :=
  h.of_agrees (by simp) (by simp) (State.agrees_miss a)

theorem State.consistent.result (h : s.consistent) (c : ResultCode) (v : Nat) : (s.result c v).consistent :=
  h.of_same rfl rfl rfl rfl rfl

/-- A slot record changes as an alike one of the same op. -/
theorem State.consistent.of_alike (h : s.consistent) (hx : s.slots[n] = some x) (hxy : x.Alike y) (hop : y.op = x.op)
    (hslots : t.slots = s.slots.set n (some y)) (harb : t.arb = s.arb) (hpark : t.park = s.park) (hlink : t.link = s.link)
    (hstations : t.stations = s.stations) : t.consistent := by
  refine (h.placed.of_alike hx hxy hslots (State.agrees_of_same harb hpark (by rw [hlink]) hstations)).consistent
    (State.turnFits_of_kept h.turn (.inl hlink) (State.KeepsServed.of_set hslots fun _ z hz => ?_))
  obtain rfl := Option.some.inj (hx.symm.trans hz)
  exact ⟨y, rfl, hop, hxy.station⟩

/-! ### A slot that is off the link -/

/-- A record of a slot that is not on the link. -/
structure Exchange.OffLink (x : Exchange) : Prop where
  onExchange : x.st.onExchange = false
  onVisit : x.st.onVisit = false

theorem Exchange.Resting.offLink (h : x.Resting) : x.OffLink := ⟨h.onExchange, h.onVisit⟩

theorem State.Placed.not_concerned (h : s.Placed) (hx : ∀ x, s.slots[n] = some x → x.OffLink) :
    s.link.op.concerns n = false := by
  have hn := h n
  cases hs : s.slots[n] with
  | none =>
    rw [hs] at hn
    exact LinkOp.concerns_eq_false hn.conducts hn.visits
  | some x =>
    rw [hs] at hn
    obtain ⟨hexchange, hvisit⟩ := hx x hs
    exact LinkOp.concerns_eq_false (hn.conducts.trans hexchange) (hn.visits.trans hvisit)

/-- The record of a slot that is off the link changes; entries of the cleanup list are unbound at most. -/
theorem State.consistent.of_offLink (h : s.consistent) (hx : ∀ x, s.slots[n] = some x → x.OffLink) (ht : t.Placed)
    (hslots : t.slots = s.slots.set n o)
    (hlink : t.link = s.link ∨ ∃ n, t.link = { s.link with op := s.link.op.unbind n }) : t.consistent := by
  refine ht.consistent (State.turnFits_of_kept h.turn hlink (State.KeepsServed.of_set hslots fun hc => ?_))
  rw [h.placed.not_concerned hx] at hc
  cases hc

theorem State.consistent.enterDone (h : s.consistent) (hx : s.slots[n] = some x) (hoff : x.OffLink) (f : FinalStatus)
    (st : Option Byte) (res : List Byte) : (s.enterDone n f st res).consistent := by
  have hall (y : Exchange) (hy : s.slots[n] = some y) : y.OffLink := Option.some.inj (hx.symm.trans hy) ▸ hoff
  have hplaced := h.placed.enterDone hx hoff.onExchange (fun limit hop => by
    have hc := h.placed.not_concerned hall
    rw [hop] at hc
    simp [LinkOp.concerns] at hc) f st res
  rw [State.enterDone_of_some hx] at hplaced ⊢
  exact h.of_offLink hall hplaced State.afterDone_slots (.inr ⟨n, State.afterDone_link⟩)

/-- A record off the link becomes another, of the same station and tag. -/
structure Exchange.Shifts (x y : Exchange) : Prop where
  before : x.OffLink
  after : y.OffLink
  station : y.station = x.station
  tag : y.st.tag? = x.st.tag?
  aborting : x.st.isAborting = true → y.st.isAborting = true

/-- A slot off the link, out of every list, joins the list of its new state. -/
theorem State.Placed.shift (h : s.Placed) (hx : s.slots[n] = some x) (hxy : x.Shifts y) (hy : y.shelf = some L)
    (hother : ∀ m, m ≠ n → s.Agrees u m) (hout : ∀ K, (u.shelf K).count n = 0) (hop : u.link.op = s.link.op)
    (hstations : u.stations = s.stations) (hjoin : u.Joins t n L) (hop' : t.link.op = u.link.op)
    (hstations' : t.stations = u.stations) (hslots : t.slots = s.slots.set n (some y)) : t.Placed := by
  have hn : s.FitsAs n (some x) := hx ▸ h n
  refine h.of_set hslots (fun m hm => (hother m hm).trans (hjoin.agrees hop' hstations' hm)) ?_
  refine hn.change (fun K => ?_) ?_ ?_ (fun a g => by rw [hstations', hstations]) hxy.station hxy.tag
    (fun e => by rw [hop', hop]; exact id) hxy.aborting
  · rw [hjoin.count, hout, hy, Nat.zero_add]
    simp only [and_true, Option.some.injEq, eq_comm]
  · rw [hop', hop, hn.conducts, hxy.after.onExchange]
    exact hxy.before.onExchange
  · rw [hop', hop, hn.visits, hxy.after.onVisit]
    exact hxy.before.onVisit

theorem State.consistent.shift (h : s.consistent) (hx : s.slots[n] = some x) (hxy : x.Shifts y) (hy : y.shelf = some L)
    (hother : ∀ m, m ≠ n → s.Agrees u m) (hout : ∀ K, (u.shelf K).count n = 0) (hop : u.link = s.link)
    (hstations : u.stations = s.stations) (hjoin : u.Joins t n L) (hlink : t.link = u.link)
    (hstations' : t.stations = u.stations) (hslots : t.slots = s.slots.set n (some y)) : t.consistent :=
  h.of_offLink (fun _ hz => Option.some.inj (hx.symm.trans hz) ▸ hxy.before)
    (h.placed.shift hx hxy hy hother hout (by rw [hop]) hstations hjoin (by rw [hlink]) hstations' hslots) hslots
    (.inl (hlink.trans hop))

/-- A slot leaves its lists for the list of its new state. -/
theorem State.consistent.relist (h : s.consistent) (hx : s.slots[n] = some x) (hxy : x.Shifts y) (hy : y.shelf = some L)
    (hjoin : ((s.leaveLists n).setSlot n (some y)).Joins t n L) (hlink : t.link = s.link) (hstations : t.stations = s.stations)
    (hslots : t.slots = s.slots.set n (some y)) : t.consistent :=
  h.shift (u := (s.leaveLists n).setSlot n (some y)) hx hxy hy
    (fun m hm => (State.agrees_leaveLists hm).trans (State.agrees_setSlot _ m)) (fun K => State.leaveLists_count K) rfl rfl
    hjoin hlink hstations hslots

/-- A slot that holds a tag and waits off the link. -/
theorem Exchange.shifts_of_waiting {st : SlotState} (hx : x.OffLink) (habort : x.st.isAborting = false)
    (hst : st.onExchange = false) (hst' : st.onVisit = false) (htag : st.tag? = x.st.tag?) :
    x.Shifts { x with st := st } :=
  ⟨hx, ⟨hst, hst'⟩, rfl, htag, fun h => by rw [habort] at h; cases h⟩

theorem State.consistent.condemn (h : s.consistent) (hx : s.slots[n] = some x) (hoff : x.OffLink)
    (habort : x.st.isAborting = false) (htag : x.st.tag? = some g) (f : Fatal) : (s.condemn n x g f).consistent :=
  h.relist hx (Exchange.shifts_of_waiting (st := .aborting g f none) hoff habort rfl rfl htag.symm) (by rfl)
    (State.joins_joinAbort n) rfl rfl rfl

theorem State.consistent.recalled (h : s.consistent) (hx : s.slots[n] = some x) (hoff : x.OffLink)
    (habort : x.st.isAborting = false) (htag : x.st.tag? = some g) (r : ParkReason) : (s.recalled n x g r).consistent :=
  h.relist hx (Exchange.shifts_of_waiting (st := .recalled g r) hoff habort rfl rfl htag.symm) (by rfl)
    (State.joins_joinRecall n) rfl rfl rfl

/-! ### Grants -/

theorem State.turnFits_send {v : Service} (hv : s.served = some v) (hkind : v.sends f.kind = true)
    (haddr : f.body.address = addressOf v.station) : (s.send f).turnFits = true := by
  refine State.turnFits_of_served (s := s.send f) hv ?_
  rw [LinkEngine.serves, Bool.or_eq_true]
  exact .inl (LinkEngine.sendsTo_iff.mpr ⟨rfl, rfl, f, rfl, hkind, haddr⟩)

theorem State.Placed.send (h : s.Placed) (f : Frame) : (s.send f).Placed := h.of_agrees rfl (State.agrees_send f)

theorem State.Placed.consistent_send {v : Service} (h : s.Placed) (hv : s.served = some v) (hkind : v.sends f.kind = true)
    (haddr : f.body.address = addressOf v.station) : (s.send f).consistent :=
  (h.send f).consistent (State.turnFits_send hv hkind haddr)

/-- Another slot than the one the new operation is for, on an idle link. -/
theorem State.agrees_setOp_idle (hidle : s.link.op = .idle) (hop : op.IsFor n) (hm : m ≠ n) : s.Agrees (s.setOp op) m := by
  obtain ⟨hcond, hvis⟩ := hop.other hm
  refine State.agrees_setOp ?_ ?_ fun e he => ?_
  · rw [hidle]
    exact hcond
  · rw [hidle]
    exact hvis
  · refine absurd he (LinkOp.not_binds (fun w e => ?_) m _)
    rcases hop with ⟨c, rfl, -⟩ | ⟨limit, rfl⟩ <;> cases e

/-- A slot goes from a list to the link. -/
theorem State.Placed.take (h : ∀ m, m ≠ n → s.FitsAs m s.slots[m]) (hidle : s.link.op = .idle) (hop : op.IsFor n)
    (htags : ∀ (a : StationNo) (g : Tag), s.stations[a].tagMap[g] = some n ↔ y.station = a ∧ y.st.tag? = some g)
    (hy : y.shelf = none) (hcond : op.conducts n = y.st.onExchange) (hvis : op.visits n = y.st.onVisit) :
    (((s.leaveLists n).setSlot n (some y)).setOp op).Placed := by
  have hnot (e : CleanupEntry) : ¬ op.binds n e := by
    refine LinkOp.not_binds (fun w e => ?_) n e
    rcases hop with ⟨c, rfl, -⟩ | ⟨limit, rfl⟩ <;> cases e
  intro m
  by_cases hm : m = n
  · subst hm
    have hslot : (((s.leaveLists m).setSlot m (some y)).setOp op).slots[m] = some y := slot_set_self
    rw [hslot]
    refine ⟨fun K => ?_, hcond, hvis, fun a g => (htags a g).trans (by simp), fun e he => absurd he (hnot e)⟩
    rw [Option.bind_some, hy]
    exact State.leaveLists_count K
  · have hslot : (((s.leaveLists n).setSlot n (some y)).setOp op).slots[m] = s.slots[m] := slot_set_ne hm
    rw [hslot]
    have hagree : s.Agrees ((s.leaveLists n).setSlot n (some y)) m :=
      (State.agrees_leaveLists hm).trans (State.agrees_setSlot _ m)
    exact (hagree.trans (State.agrees_setOp_idle (s := (s.leaveLists n).setSlot n (some y)) hidle hop hm)).fitsAs (h m hm)

theorem openingFrame_fits (resumed : Bool) (x : Exchange) (g : Tag) :
    Phase.opening.sends (openingFrame resumed x g).kind = true ∧ (openingFrame resumed x g).body.address = addressOf x.station := by
  cases resumed <;> exact ⟨rfl, rfl⟩

theorem State.consistent_connect (h : ∀ m, m ≠ n → s.FitsAs m s.slots[m]) (hidle : s.link.op = .idle)
    (htags : ∀ (a : StationNo) (h : Tag), s.stations[a].tagMap[h] = some n ↔ x.station = a ∧ g = h) (resumed : Bool) :
    (s.connect n x g resumed).consistent := by
  have hplaced := State.Placed.take (op := .exchange (newConnection s n x resumed))
    (y := { x with st := .connected g 0 none }) h hidle (.inl ⟨_, rfl, rfl⟩)
    (fun a h => (htags a h).trans (and_congr_right fun _ => (Option.some.injEq _ _).to_iff.symm)) rfl
    (by simp [LinkOp.conducts, LinkOp.isExchange, LinkOp.concerns, newConnection, SlotState.onExchange])
    (by simp [LinkOp.visits, LinkOp.isExchange, SlotState.onVisit])
  obtain ⟨hkind, haddr⟩ := openingFrame_fits resumed x g
  refine hplaced.consistent_send (v := (newConnection s n x resumed).service x.station) ?_ hkind haddr
  have hslot : (s.slots.set n (some { x with st := .connected g 0 none }))[n] = some { x with st := .connected g 0 none } :=
    slot_set_self
  simp only [State.served, State.setOp, State.withLink, LinkOp.service, newConnection, State.setSlot, State.leaveLists,
    State.withArb, State.withPark, hslot, Option.bind_some]
  rfl

theorem State.FitsAs.tags_of_some (h : s.FitsAs n (some x)) (hx : x.st.tag? = some g) (a : StationNo) (g' : Tag) :
    s.stations[a].tagMap[g'] = some n ↔ x.station = a ∧ g = g' := by
  rw [h.tags]
  simp [hx]

theorem Station.lowestFreeTag_free {st : Station} (h : st.lowestFreeTag = some g) : st.tagMap[g] = none := by
  have := List.find?_some h
  simpa using this

theorem State.setTag_tagMap (b : StationNo) (e : Option SlotNo) (g' : Tag) :
    (s.setTag a g e).stations[b].tagMap[g'] = if a = b ∧ g = g' then e else s.stations[b].tagMap[g'] := by
  by_cases hb : a = b
  · subst hb
    have hget : (s.setTag a g e).stations[a] = { s.stations[a] with tagMap := s.stations[a].tagMap.set g e } :=
      Vector.getElem_set_self a.isLt
    rw [hget]
    by_cases hg : g = g'
    · subst hg
      rw [if_pos ⟨rfl, rfl⟩]
      exact Vector.getElem_set_self g.isLt
    · rw [if_neg fun h => hg h.2]
      exact Vector.getElem_set_ne g.isLt g'.isLt fun e => hg (Fin.ext e)
  · have hget : (s.setTag a g e).stations[b] = s.stations[b] :=
      Vector.getElem_set_ne a.isLt b.isLt fun e => hb (Fin.ext e)
    rw [hget, if_neg fun h => hb h.1]

/-- The state in which a slot that is about to be called has its tag (R100). -/
def State.bound (s : State) (n : SlotNo) (x : Exchange) (g : Tag) (fairness : Nat) : State :=
  (s.withArb fun r => { r with fairness := fairness }).setTag x.station g (some n)

theorem State.agrees_bound {fairness : Nat} (hfree : s.stations[x.station].tagMap[g] = none) (hm : m ≠ n) :
    s.Agrees (s.bound n x g fairness) m := by
  have hfair : s.Agrees (s.withArb fun r => { r with fairness := fairness }) m := by
    refine State.agrees_of_core (fun K => ?_) ?_ (fun _ => ?_) m
    · cases K <;> rfl
    · rfl
    · rfl
  refine hfair.trans (State.agrees_setTag (fun e => hm (Option.some.inj e).symm) fun e => ?_)
  cases hfree.symm.trans e

theorem State.consistent.granted (h : s.consistent) (hidle : s.link.op = .idle) (hg : Granted s u) : u.consistent := by
  cases hg with
  | poll =>
    have hplaced : (s.setOp (.poll ⟨.sending, s.replyMask, s.replyMask, 0, []⟩)).Placed := by
      refine h.placed.of_agrees rfl fun m => State.agrees_setOp ?_ ?_ fun e ⟨w, hw, he, _⟩ => ?_
      · rw [hidle]; rfl
      · rw [hidle]; rfl
      · obtain rfl := LinkOp.poll.inj hw
        cases he
    exact (hplaced.send _).consistent (State.turnFits_of_apart rfl)
  | @visit n x g f r hx hst =>
    have hn : s.FitsAs n (some x) := hx ▸ h.placed n
    have hplaced := State.Placed.take (op := .abortVisit n s.host.retryLimit.toNat)
      (y := { x with st := .aborting g f (some 0) }) (fun m _ => h.placed m) hidle (.inr ⟨_, rfl⟩)
      (fun a g' => (hn.tags_of_some (by simp [hst, SlotState.tag?]) a g').trans
        (and_congr_right fun _ => (Option.some.injEq _ _).to_iff.symm)) rfl
      (by simp [LinkOp.conducts, LinkOp.isExchange, SlotState.onExchange])
      (by simp [LinkOp.visits, LinkOp.isExchange, LinkOp.concerns, SlotState.onVisit])
    refine hplaced.consistent_send (v := abortService x.station) ?_ rfl rfl
    exact congrArg (Option.map fun x => abortService x.station) slot_set_self
  | @resume n x g hx hst =>
    have hn : s.FitsAs n (some x) := hx ▸ h.placed n
    refine State.consistent_connect (fun m _ => h.placed m) hidle (hn.tags_of_some ?_) true
    rcases hst with ⟨k, hst⟩ | hst <;> simp [hst, SlotState.tag?]
  | @call n x g fairness hx hst hfree _ =>
    have hn : s.FitsAs n (some x) := hx ▸ h.placed n
    have hnone := Station.lowestFreeTag_free hfree
    have hbound (m : SlotNo) (hm : m ≠ n) : (s.bound n x g fairness).FitsAs m (s.bound n x g fairness).slots[m] := by
      have hslots : (s.bound n x g fairness).slots = s.slots := rfl
      rw [hslots]
      exact (State.agrees_bound hnone hm).fitsAs (h.placed m)
    refine State.consistent_connect (s := s.bound n x g fairness) hbound hidle (fun a g' => ?_) false
    rw [State.bound, State.setTag_tagMap]
    split
    · next hg => exact ⟨fun _ => hg, fun _ => rfl⟩
    · next hno =>
      refine ⟨fun e => ?_, fun hg => absurd hg hno⟩
      obtain ⟨z, hz, -, ht⟩ := (hn.tags a g').mp e
      obtain rfl := Option.some.inj hz
      simp [hst, SlotState.tag?] at ht

theorem State.consistent.choose (h : s.consistent) : s.choose.consistent :=
  State.choose_induct h fun _ hidle hg => h.granted hidle hg

end Sys2Proof.Machine
end

section
/-!
PROOF. What the head does in a connection keeps slots, lists, tags and the link in agreement.
-/
set_option Elab.async false

namespace Sys2Proof.Machine

variable {s t u : State} {n m : SlotNo} {x y z : Exchange} {a : StationNo} {o : Option Exchange} {g : Tag} {w : PollWindow}
  {op : LinkOp} {f : Frame} {k k' : Carried} {L : Shelf}

/-- The connection on the link may go on as `k`. -/
structure State.GoesOn (s : State) (k : Carried) : Prop where
  placed : s.Placed
  carries : s.Carries k
  sound : k.c.sound k.x.op = true

/-- The station of the connection has been heard: the head holds the turn, or the station keeps it. -/
structure State.Heard (s : State) (k : Carried) : Prop extends s.GoesOn k where
  turn : s.link.turn = .head ∨ (s.link.heldBy k.x.station = true ∧ k.c.phase ≠ .sending)

theorem State.Placed.of_same (h : s.Placed) (hslots : t.slots = s.slots) (harb : t.arb = s.arb) (hpark : t.park = s.park)
    (hop : t.link.op = s.link.op) (hstations : t.stations = s.stations) : t.Placed :=
  h.of_agrees hslots (State.agrees_of_same harb hpark hop hstations)

theorem State.GoesOn.of_same (h : s.GoesOn k) (hslots : t.slots = s.slots) (harb : t.arb = s.arb) (hpark : t.park = s.park)
    (hop : t.link.op = s.link.op) (hstations : t.stations = s.stations) : t.GoesOn k :=
  ⟨h.placed.of_same hslots harb hpark hop hstations, h.carries.of_same hslots hop, h.sound⟩

theorem State.GoesOn.leads (h : s.GoesOn k) (hslot : k'.c.slot = k.c.slot) (hop : k'.x.op = k.x.op)
    (hstation : k'.x.station = k.x.station) (htag : k'.tag = k.tag) (hsound : k'.c.sound k'.x.op = true) : s.GoesOn k' :=
  ⟨h.placed, h.carries.leads hslot hop hstation htag, hsound⟩

/-- The connection goes on in the same phase. -/
theorem State.GoesOn.same_phase (h : s.GoesOn k) (hslot : k'.c.slot = k.c.slot) (hop : k'.x.op = k.x.op)
    (hstation : k'.x.station = k.x.station) (htag : k'.tag = k.tag) (hphase : k'.c.phase = k.c.phase)
    (hmark : k'.c.abortSent = k.c.abortSent) : s.GoesOn k' :=
  h.leads hslot hop hstation htag (by rw [Connection.sound, hphase, hmark, hop]; exact h.sound)

theorem State.Carries.record (h : s.Carries k) : ∃ x, s.slots[k.c.slot] = some x ∧ x.Alike k.record ∧ x.op = k.x.op ∧
    x.shelf = none ∧ s.link.op.IsFor k.c.slot := by
  obtain ⟨k0, h0, hslot, hop, hstation, htag⟩ := h
  obtain ⟨hlink, hx, hst⟩ := s.carried_spec k0 h0
  refine ⟨k0.x, slots_of_eq hslot hx, ?_, hop.symm, by simp [Exchange.shelf, hst], .inl ⟨k0.c, hlink, hslot.symm⟩⟩
  constructor <;>
    simp [Carried.record, Exchange.shelf, hst, SlotState.onExchange, SlotState.onVisit, SlotState.tag?, SlotState.isAborting,
      hstation, htag]

theorem State.GoesOn.placed_carry (h : s.GoesOn k) : (s.carry k).Placed := by
  obtain ⟨x, hx, halike, -, -, hfor⟩ := h.carries.record
  refine h.placed.of_alike hx halike rfl fun m => ?_
  refine (State.agrees_setSlot _ m).trans (State.agrees_setOp (s := s.setSlot k.c.slot _) ?_ ?_ fun e he => ?_)
  · obtain ⟨c, hc, hslot⟩ := h.carries.op
    simp only [State.setSlot_link, hc, LinkOp.conducts, LinkOp.isExchange, LinkOp.concerns, hslot]
  · obtain ⟨c, hc, -⟩ := h.carries.op
    simp only [State.setSlot_link, hc, LinkOp.visits, LinkOp.isExchange, Bool.not_true, Bool.false_and]
  · exact absurd he (LinkOp.not_binds (by simp) m e)

theorem State.served_carry (h : k.c.sound k.x.op = true) : (s.carry k).served = some (k.c.service k.x.station) := by
  have hslot : (s.carry k).slots[k.c.slot] = some k.record := slot_set_self
  have hop : (s.carry k).link.op = .exchange k.c := rfl
  have hsound : k.c.sound k.record.op = true := h
  rw [State.served, hop, LinkOp.service, hslot, Option.bind_some, if_pos hsound]
  rfl

/-- The head sends a frame of the phase to the station of the connection. -/
theorem State.GoesOn.carrySend (h : s.GoesOn k) (hkind : k.c.phase.sends f.kind = true)
    (haddr : f.body.address = addressOf k.x.station) : ((s.carry k).send f).consistent :=
  h.placed_carry.consistent_send (State.served_carry h.sound) hkind haddr

/-- The station keeps the turn. -/
theorem State.GoesOn.keep (h : s.GoesOn k) (hheld : s.link.heldBy k.x.station = true) (hphase : k.c.phase ≠ .sending) :
    (s.carry k).consistent := by
  refine h.placed_carry.consistent (State.turnFits_of_served (State.served_carry h.sound) ?_)
  rw [LinkEngine.serves, Bool.or_eq_true, Bool.and_eq_true]
  exact .inr ⟨hheld, by simpa [Connection.service] using hphase⟩

/-! ### The end of a connection or of a visit -/

theorem State.finish_consistent (h : s.Placed) (hx : s.slots[n] = some x) (hop : s.link.op.IsFor n) (r : FinalStatus)
    (st : Option Byte) (res : List Byte) : (s.finish n r st res).consistent :=
  (h.finish hx hop r st res).consistent (State.turnFits_of_apart rfl)

theorem State.finishMissed_consistent (h : s.Placed) (hx : s.slots[n] = some x) (hop : s.link.op.IsFor n) (r : FinalStatus)
    (a : StationNo) : (s.finishMissed n r a).consistent :=
  (h.finishMissed hx hop r a).consistent (State.turnFits_of_apart rfl)

theorem State.GoesOn.finish (h : s.GoesOn k) (r : FinalStatus) (st : Option Byte) (res : List Byte) :
    (s.finish k.c.slot r st res).consistent := by
  obtain ⟨x, hx, -, -, -, hfor⟩ := h.carries.record
  exact State.finish_consistent h.placed hx hfor r st res

theorem State.GoesOn.finishMissed (h : s.GoesOn k) (r : FinalStatus) (a : StationNo) :
    (s.finishMissed k.c.slot r a).consistent := by
  obtain ⟨x, hx, -, -, -, hfor⟩ := h.carries.record
  exact State.finishMissed_consistent h.placed hx hfor r a

/-! ### The abort phase -/

theorem State.GoesOn.enterAbortPhase (h : s.GoesOn k) : (s.enterAbortPhase k).consistent :=
  State.GoesOn.carrySend (s := s.giveUpReserved)
    (k := { k with retry := 0, c := { k.c with phase := .abortSent, abortSent := true } })
    ((h.of_same (t := s.giveUpReserved) rfl rfl rfl rfl rfl).leads rfl rfl rfl rfl rfl) rfl rfl

theorem State.GoesOn.abortRecovery (h : s.GoesOn k) (hmark : k.c.abortSent = true) : (s.abortRecovery k).consistent := by
  have hphase : k.c.phase = .abortSent := by
    have := (Bool.and_eq_true_iff.mp h.sound).1
    simpa [hmark] using this
  unfold State.abortRecovery
  split
  · exact State.GoesOn.carrySend (k := { k with retry := k.retry + 1 }) (h.same_phase rfl rfl rfl rfl rfl rfl)
      (by simp only [hphase]; rfl) rfl
  · exact h.finishMissed _ _

theorem State.GoesOn.condemned (h : s.GoesOn k) (r : Fatal) : s.GoesOn (k.condemned r) :=
  h.same_phase rfl rfl rfl rfl rfl rfl

theorem State.Heard.abortAtTurn (h : s.Heard k) : (s.abortAtTurn k).consistent := by
  unfold State.abortAtTurn
  split
  · exact h.enterAbortPhase
  · next hturn =>
    obtain ⟨hheld, hphase⟩ := h.turn.resolve_left hturn
    exact h.toGoesOn.keep hheld hphase

theorem State.Heard.protocolError (h : s.Heard k) : (s.protocolError k).consistent :=
  State.Heard.abortAtTurn ⟨h.toGoesOn.condemned .protocol, h.turn⟩

theorem State.GoesOn.exhausted (h : s.GoesOn k) : (s.exhausted k).consistent := (h.condemned .linkError).enterAbortPhase

/-- ABORT has not been sent, so the phase is one of the others. -/
theorem Connection.sound_of_unsent {c : Connection} {p : Op} (h : c.sound p = true) (hmark : c.abortSent = false) :
    c.phase ≠ .abortSent ∧ c.phase.of p = true := by
  obtain ⟨hsame, hof⟩ := Bool.and_eq_true_iff.mp h
  refine ⟨fun e => ?_, hof⟩
  rw [hmark, e] at hsame
  cases hsame

theorem Connection.sound_iff_of_unsent {c : Connection} {p : Op} (hmark : c.abortSent = false) (hphase : c.phase ≠ .abortSent)
    (hof : c.phase.of p = true) : c.sound p = true := by
  rw [Connection.sound, hmark, hof, Bool.and_true, beq_iff_eq]
  exact (beq_eq_false_iff_ne.mpr hphase).symm

/-! ### Data phases -/

theorem State.GoesOn.startBurst (h : s.GoesOn k) (hop : k.x.op = .write) (hmark : k.c.abortSent = false) :
    (s.startBurst k).consistent := by
  refine State.GoesOn.carrySend (h.leads rfl rfl rfl rfl ?_) rfl rfl
  exact Connection.sound_iff_of_unsent hmark (by simp) (by simp [Phase.of, hop])

theorem State.GoesOn.sendClosingAck (h : s.GoesOn k) (hop : k.x.op ≠ .control) (hmark : k.c.abortSent = false) :
    (s.sendClosingAck k).consistent := by
  refine State.GoesOn.carrySend (h.leads rfl rfl rfl rfl ?_) rfl rfl
  exact Connection.sound_iff_of_unsent hmark (by simp) (by simpa [Phase.of] using hop)

theorem State.GoesOn.recover {next : State → Carried → State} (h : s.GoesOn k)
    (hnext : ∀ r, (next s { k with retry := r }).consistent) : (s.recover k next).consistent := by
  unfold State.recover
  split
  · exact hnext _
  · exact h.exhausted

/-! ### Parks and requeues -/

/-- An operation on no slot. -/
structure LinkOp.Alone (op : LinkOp) : Prop where
  conducts : ∀ m, op.conducts m = false
  visits : ∀ m, op.visits m = false
  binds : ∀ m e, ¬ op.binds m e

theorem LinkOp.alone_idle : LinkOp.idle.Alone := ⟨fun _ => rfl, fun _ => rfl, LinkOp.not_binds (by simp)⟩

theorem LinkOp.alone_parking : LinkOp.parking.Alone := ⟨fun _ => rfl, fun _ => rfl, LinkOp.not_binds (by simp)⟩

theorem LinkOp.alone_resetBreak : LinkOp.resetBreak.Alone := ⟨fun _ => rfl, fun _ => rfl, LinkOp.not_binds (by simp)⟩

theorem LinkOp.alone_resetQuiet : LinkOp.resetQuiet.Alone := ⟨fun _ => rfl, fun _ => rfl, LinkOp.not_binds (by simp)⟩

/-- The slot of the connection leaves the link for a list. -/
theorem State.GoesOn.leave (h : s.GoesOn k) (hslots : t.slots = s.slots.set k.c.slot (some y)) (hy : y.shelf = some L)
    (hoff : y.OffLink) (hjoin : s.Joins t k.c.slot L) (hop : t.link.op.Alone)
    (hothers : ∀ m, m ≠ k.c.slot → ∀ (a : StationNo) (g : Tag),
      t.stations[a].tagMap[g] = some m ↔ s.stations[a].tagMap[g] = some m)
    (htags : ∀ (a : StationNo) (g : Tag), t.stations[a].tagMap[g] = some k.c.slot ↔ y.station = a ∧ y.st.tag? = some g) :
    t.Placed := by
  obtain ⟨x, hx, -, -, hshelf, hfor⟩ := h.carries.record
  have hn : s.FitsAs k.c.slot (some x) := hx ▸ h.placed k.c.slot
  refine h.placed.of_set hslots (fun m hm => ⟨fun K => ?_, ?_, ?_, hothers m hm, fun e he => absurd he (hop.binds m e)⟩)
    ⟨fun K => ?_, ?_, ?_, fun a g => (htags a g).trans (by simp), fun e he => absurd he (hop.binds _ e)⟩
  · rw [hjoin.count K m, if_neg fun e => hm e.2, Nat.add_zero]
  · rw [hop.conducts, (hfor.other hm).1]
  · rw [hop.visits, (hfor.other hm).2]
  · rw [hjoin.count, hn.not_listed hshelf, Option.bind_some, hy]
    simp only [and_true, Option.some.injEq, Nat.zero_add, eq_comm]
  · rw [hop.conducts, Option.any_some, hoff.onExchange]
  · rw [hop.visits, Option.any_some, hoff.onVisit]

theorem State.GoesOn.tags (h : s.GoesOn k) (a : StationNo) (g : Tag) :
    s.stations[a].tagMap[g] = some k.c.slot ↔ k.x.station = a ∧ k.tag = g := by
  obtain ⟨x, hx, halike, -⟩ := h.carries.record
  have hn : s.FitsAs k.c.slot (some x) := hx ▸ h.placed k.c.slot
  have htag : x.st.tag? = some k.tag := halike.tag.symm
  have hstation : x.station = k.x.station := halike.station.symm
  rw [hn.tags_of_some htag, hstation]

theorem State.GoesOn.parkStation (h : s.GoesOn k) : (s.parkStation k).consistent := by
  refine State.Placed.consistent (h.leave (t := s.parkStation k) (L := .deadline)
    (y := { k.x with st := .parkedStation k.tag (s.park.timebase + s.stations[k.x.station].parkLimit.setWidth 32) })
    ?_ rfl ⟨rfl, rfl⟩ ?_ ?_ ?_ ?_) (State.turnFits_of_apart rfl)
  · unfold State.parkStation
    dsimp only
    split <;> rfl
  · have hjoin := State.joins_arm (s := s.setSlot k.c.slot (some { k.x with
      st := .parkedStation k.tag (s.park.timebase + s.stations[k.x.station].parkLimit.setWidth 32) })) k.c.slot
      s.stations[k.x.station].parkLimit.toNat
    unfold State.parkStation
    dsimp only
    split <;> exact hjoin
  · exact LinkOp.alone_parking
  · intro m _ a g
    unfold State.parkStation
    dsimp only
    split <;> exact Iff.rfl
  · intro a g
    have hstations : (s.parkStation k).stations = s.stations := by
      unfold State.parkStation
      dsimp only
      split <;> rfl
    rw [hstations, h.tags]
    simp [SlotState.tag?]

theorem State.GoesOn.parkPool (h : s.GoesOn k) : (s.parkPool k).consistent := by
  refine State.Placed.consistent (h.leave (t := s.parkPool k) (L := .poolWait) (y := { k.x with st := .parkedPool k.tag })
    rfl rfl ⟨rfl, rfl⟩ ?_ LinkOp.alone_parking (fun _ _ _ _ => Iff.rfl) fun a g => ?_) (State.turnFits_of_apart rfl)
  · exact State.joins_joinPool (s := s.setSlot k.c.slot (some { k.x with st := .parkedPool k.tag })) k.c.slot
  · refine (h.tags a g).trans ?_
    simp [SlotState.tag?]

theorem State.withStation_tagMap (a b : StationNo) (f : Station → Station) (hf : ∀ st, (f st).tagMap = st.tagMap) :
    (s.withStation a f).stations[b].tagMap = s.stations[b].tagMap := by
  by_cases h : b = a
  · subst h
    have hget : (s.withStation b f).stations[b] = f s.stations[b] := Vector.getElem_set_self b.isLt
    rw [hget, hf]
  · have hget : (s.withStation a f).stations[b] = s.stations[b] :=
      Vector.getElem_set_ne a.isLt b.isLt fun e => h (Fin.ext e.symm)
    rw [hget]

theorem State.GoesOn.requeue (h : s.GoesOn k) : (s.requeue k).consistent := by
  have hheld : s.stations[k.x.station].tagMap[k.tag] = some k.c.slot := (h.tags _ _).mpr ⟨rfl, rfl⟩
  have hstation (a : StationNo) (g : Tag) :
      (s.requeue k).stations[a].tagMap[g] = (s.setTag k.x.station k.tag none).stations[a].tagMap[g] := by
    have hkept := State.withStation_tagMap (s := s.setTag k.x.station k.tag none) k.x.station a
      (fun st => { st with backoff := true }) fun _ => rfl
    exact congrArg (·[g]) hkept
  refine State.Placed.consistent (h.leave (t := s.requeue k) (L := if k.x.urgent then .level1 else .level0)
    (y := { k.x with busyCount := k.x.busyCount + 1, st := .queued }) rfl ?_ ⟨rfl, rfl⟩ ?_ LinkOp.alone_idle
    (fun m hm a g => ?_) fun a g => ?_) (State.turnFits_of_apart rfl)
  · cases hu : k.x.urgent <;> simp [Exchange.shelf, hu]
  · exact State.joins_joinIssue (s := (s.setTag k.x.station k.tag none).setSlot k.c.slot
      (some { k.x with busyCount := k.x.busyCount + 1, st := .queued })) k.c.slot k.x.urgent
  · rw [hstation, State.setTag_tagMap]
    split
    · next hg =>
      obtain ⟨rfl, rfl⟩ := hg
      rw [hheld]
      simp [hm.symm]
    · exact Iff.rfl
  · rw [hstation, State.setTag_tagMap]
    split
    · simp [SlotState.tag?]
    · next hno =>
      rw [h.tags]
      simp only [SlotState.tag?, reduceCtorEq, and_false, iff_false]
      exact hno

end Sys2Proof.Machine
end

section
/-!
PROOF. Grant points, REFUSE, abort visits and the poll window keep slots, lists, tags and the link in agreement.
-/
set_option Elab.async false

namespace Sys2Proof.Machine

variable {s t u : State} {n m : SlotNo} {x y z : Exchange} {a : StationNo} {o : Option Exchange} {g : Tag} {w w' : PollWindow}
  {op : LinkOp} {f : Frame} {k k' : Carried} {L : Shelf} {e : CleanupEntry} {es : List CleanupEntry}

/-! ### Grant points of a READ -/

theorem State.GoesOn.grantPoint (h : s.GoesOn k) (hop : k.x.op = .read) (hmark : k.c.abortSent = false) :
    (s.grantPoint k).consistent := by
  unfold State.grantPoint
  dsimp only
  split
  · have hreserved : (s.withStage (·.reserveTo (s.grantCredit k))).GoesOn k := h.of_same rfl rfl rfl rfl rfl
    split
    · exact hreserved.parkPool
    · refine State.GoesOn.carrySend (hreserved.leads rfl rfl rfl rfl ?_) rfl rfl
      exact Connection.sound_iff_of_unsent hmark (by simp) (by simp [Phase.of, hop])
  · have hgiven : s.giveUpReserved.GoesOn k := h.of_same rfl rfl rfl rfl rfl
    refine State.GoesOn.sendClosingAck (hgiven.same_phase rfl rfl rfl rfl rfl rfl) ?_ hmark
    simp [hop]

theorem State.GoesOn.retried (h : s.GoesOn k) (r : Nat) : s.GoesOn { k with retry := r } :=
  h.same_phase rfl rfl rfl rfl rfl rfl

theorem State.GoesOn.afterBurst (h : s.GoesOn k) (hop : k.x.op = .read) (hmark : k.c.abortSent = false) :
    (s.afterBurst k).consistent := by
  unfold State.afterBurst
  split
  · exact h.recover fun r => (h.retried r).grantPoint hop hmark
  · exact h.grantPoint hop hmark

theorem State.Heard.afterData (h : s.Heard k) (hop : k.x.op = .read) (hmark : k.c.abortSent = false) :
    (s.afterData k).consistent := by
  unfold State.afterData
  split
  · exact h.toGoesOn.afterBurst hop hmark
  · next hturn =>
    obtain ⟨hheld, hphase⟩ := h.turn.resolve_left hturn
    exact h.toGoesOn.keep hheld hphase

/-! ### REFUSE and ACK -/

theorem State.GoesOn.refused (h : s.GoesOn k) (reason : Nat) : (s.refused k reason).consistent := by
  unfold State.refused
  split
  · split
    · exact h.requeue
    · have hbusy : s.GoesOn { k with x := { k.x with busyCount := k.x.busyCount + 1 } } :=
        h.same_phase rfl rfl rfl rfl rfl rfl
      obtain ⟨x, hx, halike, -, -, hfor⟩ := hbusy.carries.record
      exact State.finish_consistent (h.placed.of_alike hx halike rfl fun m => State.agrees_setSlot _ m) slot_set_self hfor
        _ _ _
  · exact h.finish _ _ _

theorem State.GoesOn.acknowledged {seq : Seq} {d credit : Nat} (h : s.GoesOn k) (hop : k.x.op = .write)
    (hmark : k.c.abortSent = false) : (s.acknowledged k seq d credit).consistent := by
  unfold State.acknowledged
  dsimp only
  split
  · refine State.GoesOn.sendClosingAck (h.same_phase rfl rfl rfl rfl rfl rfl) ?_ hmark
    simp [hop]
  · split
    · refine State.GoesOn.recover (h.same_phase rfl rfl rfl rfl rfl rfl) fun r => ?_
      exact State.GoesOn.startBurst (h.same_phase rfl rfl rfl rfl rfl rfl) hop hmark
    · exact State.GoesOn.startBurst (h.same_phase rfl rfl rfl rfl rfl rfl) hop hmark

/-! ### Abort visits -/

theorem State.Placed.visited (h : s.Placed) (hvisit : s.link.op.visits n = true) :
    ∃ x g f r, s.slots[n] = some x ∧ x.st = .aborting g f (some r) := by
  have hn := (h n).visits
  rw [hvisit] at hn
  cases hx : s.slots[n] with
  | none =>
    rw [hx] at hn
    cases hn
  | some x =>
    rw [hx, Option.any_some] at hn
    unfold SlotState.onVisit at hn
    split at hn
    · next g f r hst => exact ⟨x, g, f, r, rfl, hst⟩
    · cases hn

theorem LinkOp.visits_abortVisit (n : SlotNo) (limit : Nat) : (LinkOp.abortVisit n limit).visits n = true := by
  simp [LinkOp.visits, LinkOp.isExchange, LinkOp.concerns]

theorem State.endAborting_of {p : Fatal} {r : Option Nat} (hx : s.slots[n] = some x) (hst : x.st = .aborting g p r)
    (st : Option Byte) : s.endAborting n st = s.enterDone n p.final st [] := by
  unfold State.endAborting
  simp only [hx, hst]

theorem State.Placed.visitRecovery {limit : Nat} (h : s.Placed) (hop : s.link.op = .abortVisit n limit) :
    (s.visitRecovery n limit).consistent := by
  obtain ⟨x, g, p, r, hx, hst⟩ := h.visited (n := n) (by rw [hop]; exact LinkOp.visits_abortVisit n limit)
  have hfor : s.link.op.IsFor n := .inr ⟨limit, hop⟩
  unfold State.visitRecovery
  simp only [hx, hst]
  split
  · have halike : x.Alike { x with st := .aborting g p (some (r + 1)) } := by
      constructor <;> simp [Exchange.shelf, hst, SlotState.onExchange, SlotState.onVisit, SlotState.tag?,
        SlotState.isAborting]
    have hplaced := h.of_alike (t := s.setSlot n (some { x with st := .aborting g p (some (r + 1)) })) hx halike rfl
      fun m => State.agrees_setSlot _ m
    refine hplaced.consistent_send (v := abortService x.station) ?_ rfl rfl
    rw [State.served, State.setSlot_link, hop]
    exact congrArg (Option.map fun x => abortService x.station) slot_set_self
  · exact State.finishMissed_consistent h hx hfor _ _

theorem State.Placed.endVisit {limit : Nat} (h : s.Placed) (hop : s.link.op = .abortVisit n limit) (st : Option Byte) :
    (s.endAborting n st).endOp.consistent := by
  obtain ⟨x, g, p, r, hx, hst⟩ := h.visited (n := n) (by rw [hop]; exact LinkOp.visits_abortVisit n limit)
  rw [State.endAborting_of hx hst]
  exact State.finish_consistent h hx (.inr ⟨limit, hop⟩) _ _ _

/-! ### The poll window -/

theorem LinkOp.visits_of_listening (h : w.phase = .listening) (n : SlotNo) : (LinkOp.poll w).visits n = false := by
  simp [LinkOp.visits, LinkOp.isExchange, LinkOp.concerns, h]

theorem LinkOp.visits_of_sending (h : w.phase = .sending) (n : SlotNo) : (LinkOp.poll w).visits n = false := by
  simp [LinkOp.visits, LinkOp.isExchange, LinkOp.concerns, h]

theorem LinkOp.visits_of_cleaning (h : w.phase = .cleaning) (hw : w.cleanup = e :: es) (n : SlotNo) :
    (LinkOp.poll w).visits n = (e.slot == some n) := by
  simp [LinkOp.visits, LinkOp.isExchange, LinkOp.concerns, h, hw]

/-- A poll window that serves no entry of its cleanup list. -/
structure State.Between (s : State) : Prop where
  placed : s.Placed
  poll : ∃ w, s.link.op = .poll w
  free : ∀ m, s.link.op.visits m = false

theorem State.Between.of_agrees (h : s.Between) (hslots : t.slots = s.slots) (hop : t.link.op = s.link.op)
    (hagree : ∀ m, s.Agrees t m) : t.Between :=
  ⟨h.placed.of_agrees hslots hagree, by rw [hop]; exact h.poll, fun m => by rw [hop]; exact h.free m⟩

theorem State.Between.miss (h : s.Between) (a : StationNo) : (s.miss a).Between :=
  h.of_agrees (by simp) (by simp) (State.agrees_miss a)

/-- The window goes on with a cleanup list that has lost entries at most, and does not serve the slot. -/
theorem State.agrees_setPoll (hop : s.link.op = .poll w) (hfree : s.link.op.visits m = false)
    (hsub : ∀ e ∈ w'.cleanup, e ∈ w.cleanup) (hfree' : (LinkOp.poll w').visits m = false) :
    s.Agrees (s.setOp (.poll w')) m := by
  refine State.agrees_setOp ?_ (hfree'.trans hfree.symm) fun e he => ?_
  · rw [hop]
    rfl
  · obtain ⟨v, hv, hmem, hslot⟩ := he
    obtain rfl := LinkOp.poll.inj hv
    exact ⟨w, hop, hsub e hmem, hslot⟩

theorem served_cleaning (h : w.phase = .cleaning) (hw : w.cleanup = e :: es) (slots : Vector (Option Exchange) 32) :
    (LinkOp.poll w).service slots = some (abortService e.station) := by
  simp [LinkOp.service, h, hw]

theorem State.Between.serveCleanup (h : s.Between) (hop : s.link.op = .poll w) (hsub : ∀ e ∈ w'.cleanup, e ∈ w.cleanup) :
    (s.serveCleanup w').consistent := by
  unfold State.serveCleanup
  split
  · exact (h.placed.of_agrees (t := s.endOp) rfl fun m => State.agrees_endOp (by rw [hop]; rfl) (h.free m)).consistent
      (State.turnFits_of_apart rfl)
  · next e es hw =>
    have hservice (slots : Vector (Option Exchange) 32) := served_cleaning (w := { w' with phase := .cleaning }) rfl hw slots
    have hvisits (n : SlotNo) := LinkOp.visits_of_cleaning (w := { w' with phase := .cleaning }) rfl hw n
    dsimp only
    split
    · next n hslot =>
      obtain ⟨x, hx, hstation, htag, habort⟩ := (h.placed n).cleanup e ⟨w, hop, hsub e (hw ▸ List.mem_cons_self), hslot⟩
      have hn : s.FitsAs n (some x) := hx ▸ h.placed n
      unfold SlotState.isAborting at habort
      split at habort
      · next g p r hst =>
        have htake : s.takeUp n = (s.leaveLists n).setSlot n (some { x with st := .aborting g p (some 0) }) := by
          unfold State.takeUp
          simp only [hx, hst]
        rw [htake]
        have hother (m : SlotNo) (hm : m ≠ n) : s.Agrees (((s.leaveLists n).setSlot n
            (some { x with st := .aborting g p (some 0) })).setOp (.poll { w' with phase := .cleaning })) m := by
          refine (State.agrees_leaveLists hm).trans ((State.agrees_setSlot _ m).trans
            (State.agrees_setPoll (s := (s.leaveLists n).setSlot n _) hop (h.free m) hsub ?_))
          rw [hvisits, hslot]
          simpa using hm.symm
        have hplaced : (((s.leaveLists n).setSlot n (some { x with st := .aborting g p (some 0) })).setOp
            (.poll { w' with phase := .cleaning })).Placed := by
          refine h.placed.of_set (n := n) (o := some { x with st := .aborting g p (some 0) }) rfl hother
            (hn.change (fun K => State.leaveLists_count K) rfl ?_ (fun _ _ => Iff.rfl) rfl ?_ (fun e he => ?_) fun _ => rfl)
          · exact (hvisits n).trans (by rw [hslot]; exact beq_self_eq_true _)
          · rw [hst]
            rfl
          · obtain ⟨v, hv, hmem, hbound⟩ := he
            obtain rfl := LinkOp.poll.inj hv
            exact ⟨w, hop, hsub e hmem, hbound⟩
        exact hplaced.consistent_send (v := abortService e.station) (hservice _) rfl rfl
      · cases habort
    · next hslot =>
      refine State.Placed.consistent_send (v := abortService e.station) ?_ (hservice _) rfl rfl
      refine h.placed.of_agrees rfl fun m => State.agrees_setPoll hop (h.free m) hsub ?_
      rw [hvisits, hslot]
      rfl

theorem State.Between.openReplySlot {left : List StationNo} (h : s.Between) (hop : s.link.op = .poll w)
    (hsub : ∀ e ∈ w'.cleanup, e ∈ w.cleanup) : (s.openReplySlot w' left).consistent := by
  unfold State.openReplySlot
  split
  · next b rest =>
    have hagree (m : SlotNo) : s.Agrees (s.openReplySlot w' (b :: rest)) m := by
      have hset := State.agrees_setPoll (m := m)
        (w' := { w' with phase := .listening, left := b :: rest, slotTime := s.host.replyTime }) hop (h.free m) hsub
        (LinkOp.visits_of_listening rfl m)
      refine hset.trans (State.agrees_of_same ?_ ?_ ?_ ?_ m) <;> rfl
    refine (h.placed.of_agrees (t := s.openReplySlot w' (b :: rest)) rfl hagree).consistent (State.turnFits_of_apart ?_)
    exact LinkEngine.apart_iff.mpr (.inr (.inr ⟨_, rfl, .inr
      ⟨LinkEngine.slotOpen_iff.mpr ⟨rfl, rfl, rfl, b, rest, rfl, rfl⟩, rfl⟩⟩))
  · exact h.serveCleanup hop hsub

theorem State.Between.endReplySlot (h : s.Between) : s.endReplySlot.consistent := by
  obtain ⟨w, hop⟩ := h.poll
  unfold State.endReplySlot
  simp only [hop]
  exact h.openReplySlot hop fun _ => id

theorem State.Between.nextCleanup (h : s.Between) : s.nextCleanup.consistent := by
  obtain ⟨w, hop⟩ := h.poll
  unfold State.nextCleanup
  simp only [hop]
  exact h.serveCleanup hop fun _ => List.mem_of_mem_tail

/-- While a reply slot is open no entry of the cleanup list is served. -/
theorem State.consistent.between (h : s.consistent) (hop : s.link.op = .poll w) (hphase : w.phase ≠ .cleaning) :
    s.Between := by
  refine ⟨h.placed, ⟨w, hop⟩, fun m => ?_⟩
  rw [hop]
  cases hp : w.phase with
  | sending => exact LinkOp.visits_of_sending hp m
  | listening => exact LinkOp.visits_of_listening hp m
  | cleaning => exact absurd hp hphase

/-- The entry served is bound to no slot. -/
theorem State.Placed.between_unbound (h : s.Placed) (hop : s.link.op = .poll w) (hphase : w.phase = .cleaning)
    (hw : w.cleanup = e :: es) (hslot : e.slot = none) : s.Between := by
  refine ⟨h, ⟨w, hop⟩, fun m => ?_⟩
  rw [hop, LinkOp.visits_of_cleaning hphase hw, hslot]
  rfl

/-- The slot of the entry served has ended. -/
theorem State.Placed.between_ended (h : s.Placed) (hop : s.link.op = .poll w) (hphase : w.phase = .cleaning)
    (hw : w.cleanup = e :: es) (hslot : e.slot = some n) (st : Option Byte) : (s.endAborting n st).Between := by
  have hvisits (m : SlotNo) : s.link.op.visits m = (e.slot == some m) := by
    rw [hop]
    exact LinkOp.visits_of_cleaning hphase hw m
  obtain ⟨x, g, p, r, hx, hst⟩ := h.visited (n := n) (by rw [hvisits, hslot]; exact beq_self_eq_true _)
  have hnot (limit : Nat) : s.link.op ≠ .abortVisit n limit := by
    rw [hop]
    simp
  have hlink : (s.enterDone n p.final st []).link.op = s.link.op.unbind n := by
    rw [State.enterDone_of_some hx, State.afterDone_link]
  rw [State.endAborting_of hx hst]
  refine ⟨h.enterDone hx (by rw [hst]; rfl) hnot _ _ _, ⟨_, hlink.trans (congrArg (LinkOp.unbind · n) hop)⟩, fun m => ?_⟩
  rw [hlink]
  by_cases hm : m = n
  · subst hm
    exact LinkOp.unbind_visits_self hnot
  · rw [LinkOp.unbind_visits hm, hvisits, hslot]
    simpa using fun e => hm e.symm

end Sys2Proof.Machine
end

section
/-!
PROOF. The frames a station sends keep slots, lists, tags and the link in agreement.
-/
set_option Elab.async false

namespace Sys2Proof.Machine

variable {s t u : State} {n m : SlotNo} {x y z : Exchange} {a : StationNo} {o : Option Exchange} {g : Tag} {w w' : PollWindow}
  {op : LinkOp} {f : Frame} {k k' : Carried} {L : Shelf} {e : CleanupEntry} {es : List CleanupEntry} {c : Connection}

/-- A frame of the station served has been taken: the head holds the turn, or the station keeps it. -/
structure State.Turned (s : State) : Prop where
  placed : s.Placed
  service : ∃ v, s.served = some v ∧ (s.link.turn = .head ∨ (s.link.heldBy v.station = true ∧ v.hears = true))

theorem State.Turned.of_same (h : s.Turned) (hslots : t.slots = s.slots) (harb : t.arb = s.arb) (hpark : t.park = s.park)
    (hlink : t.link = s.link) (hstations : t.stations = s.stations) : t.Turned :=
  ⟨h.placed.of_same hslots harb hpark (by rw [hlink]) hstations, by rw [State.served, hslots, hlink]; exact h.service⟩

/-- The station keeps the turn. -/
theorem State.Turned.kept (h : s.Turned) (hturn : s.link.turn ≠ .head) : s.consistent := by
  obtain ⟨v, hv, hheld⟩ := h.service
  refine h.placed.consistent (State.turnFits_of_served hv ?_)
  rw [LinkEngine.serves, Bool.or_eq_true, Bool.and_eq_true]
  exact .inr (hheld.resolve_left hturn)

/-! ### The operation served -/

theorem State.served_carried {v : Service} (hk : s.carried = some k) (hv : s.served = some v) :
    k.c.sound k.x.op = true ∧ v = k.c.service k.x.station := by
  obtain ⟨hop, hx, -⟩ := s.carried_spec k hk
  rw [State.served, hop, LinkOp.service, hx, Option.bind_some] at hv
  split at hv
  · next hsound => exact ⟨hsound, (Option.some.inj hv).symm⟩
  · cases hv

theorem State.Placed.carried (h : s.Placed) (hop : s.link.op = .exchange c) : ∃ k, s.carried = some k := by
  have hn := (h c.slot).conducts
  rw [hop] at hn
  cases hx : s.slots[c.slot] with
  | none =>
    rw [hx] at hn
    simp [LinkOp.conducts, LinkOp.isExchange, LinkOp.concerns] at hn
  | some x =>
    rw [hx, Option.any_some] at hn
    simp only [LinkOp.conducts, LinkOp.isExchange, LinkOp.concerns, beq_self_eq_true, Bool.and_self] at hn
    unfold SlotState.onExchange at hn
    split at hn
    · next g r p hst => exact ⟨_, State.carried_of s c x g r p hop hx hst⟩
    · cases hn

theorem State.Placed.goesOn {v : Service} (h : s.Placed) (hv : s.served = some v) (hk : s.carried = some k) : s.GoesOn k :=
  ⟨h, State.carries_of_carried hk, (State.served_carried hk hv).1⟩

theorem State.Turned.heard (h : s.Turned) (hk : s.carried = some k) : s.Heard k := by
  obtain ⟨v, hv, hturn⟩ := h.service
  obtain ⟨-, rfl⟩ := State.served_carried hk hv
  exact ⟨h.placed.goesOn hv hk, hturn.imp_right fun ⟨hheld, hhears⟩ => ⟨hheld, by simpa [Connection.service] using hhears⟩⟩

theorem State.served_poll {v : Service} (hop : s.link.op = .poll w) (hv : s.served = some v) :
    w.phase = .cleaning ∧ ∃ e es, w.cleanup = e :: es := by
  rw [State.served, hop, LinkOp.service] at hv
  split at hv
  · next e es hphase hw => exact ⟨hphase, e, es, hw⟩
  · cases hv

theorem State.Turned.cleaning (h : s.Turned) (hop : s.link.op = .poll w) :
    w.phase = .cleaning ∧ ∃ e es, w.cleanup = e :: es := by
  obtain ⟨v, hv, -⟩ := h.service
  exact State.served_poll hop hv

theorem State.Turned.operation (h : s.Turned) :
    (∃ c, s.link.op = .exchange c) ∨ (∃ n limit, s.link.op = .abortVisit n limit) ∨ ∃ w, s.link.op = .poll w := by
  obtain ⟨v, hv, -⟩ := h.service
  cases hop : s.link.op with
  | exchange c => exact .inl ⟨c, rfl⟩
  | abortVisit n limit => exact .inr (.inl ⟨n, limit, rfl⟩)
  | poll w => exact .inr (.inr ⟨w, rfl⟩)
  | _ =>
    rw [State.served, hop] at hv
    cases hv

/-- The wait for the entry served ends. -/
theorem State.Placed.endWait (h : s.Placed) (hop : s.link.op = .poll w) (hphase : w.phase = .cleaning)
    (hw : w.cleanup = e :: es) (st : Option Byte) :
    (match e.slot with
      | some n => (s.endAborting n st).nextCleanup
      | none => s.nextCleanup).consistent := by
  split
  · next hslot => exact (h.between_ended hop hphase hw hslot st).nextCleanup
  · next hslot => exact (h.between_unbound hop hphase hw hslot).nextCleanup

/-! ### Frames where only the turn counts -/

theorem State.Turned.inOperation {normal : State → Carried → State} (h : s.Turned)
    (hnormal : ∀ k, s.carried = some k → s.Heard k → k.c.abortSent = false → (normal s k).consistent) :
    (s.inOperation normal).consistent := by
  unfold State.inOperation
  split
  · next c hop =>
    split
    · next k hk =>
      have hheard := h.heard hk
      split
      · next hmark =>
        unfold State.abortSentOther
        split
        · exact hheard.toGoesOn.abortRecovery hmark
        · next hturn => exact h.kept hturn
      · next hmark =>
        split
        · exact hheard.abortAtTurn
        · exact hnormal k hk hheard (by simpa using hmark)
    · next hnone =>
      obtain ⟨k, hk⟩ := h.placed.carried hop
      cases hnone.symm.trans hk
  · next n limit hop =>
    unfold State.visitOther
    split
    · exact h.placed.visitRecovery hop
    · next hturn => exact h.kept hturn
  · next w hop =>
    obtain ⟨hphase, e, es, hw⟩ := h.cleaning hop
    unfold State.cleanupOther
    split
    · simp only [hw]
      exact h.placed.endWait hop hphase hw none
    · next hturn => exact h.kept hturn
  · next hexchange hvisit hpoll =>
    rcases h.operation with ⟨c, hop⟩ | ⟨n, limit, hop⟩ | ⟨w, hop⟩
    · exact absurd hop (hexchange c)
    · exact absurd hop (hvisit n limit)
    · exact absurd hop (hpoll w)

theorem State.Turned.condemned (h : s.Turned) : (s.inOperation State.protocolError).consistent :=
  h.inOperation fun _ _ hk _ => hk.protocolError

/-! ### Frames in a connection with no pending status -/

theorem State.Heard.normalAccept {b : FrameBody} (h : s.Heard k) (hmark : k.c.abortSent = false) :
    (State.normalAccept b s k).consistent := by
  unfold State.normalAccept
  split
  · next hread _ => exact h.toGoesOn.grantPoint hread hmark
  · next credit _ hwrite _ =>
    split
    · have hcredit : s.GoesOn { k with c := { k.c with stationCredit := some credit } } :=
        h.toGoesOn.same_phase rfl rfl rfl rfl rfl rfl
      dsimp only
      split
      · exact hcredit.startBurst hwrite hmark
      · refine hcredit.sendClosingAck ?_ hmark
        simp [hwrite]
    · exact h.protocolError
  · exact h.protocolError

theorem State.Heard.normalRefuse {b : FrameBody} (h : s.Heard k) : (State.normalRefuse b s k).consistent := by
  unfold State.normalRefuse
  split
  · exact h.toGoesOn.refused _
  · exact h.protocolError

theorem State.Heard.normalDefer {b : FrameBody} (h : s.Heard k) : (State.normalDefer b s k).consistent := by
  unfold State.normalDefer
  split
  · next offset _ =>
    split
    · exact State.GoesOn.parkStation (h.toGoesOn.same_phase rfl rfl rfl rfl rfl rfl)
    · exact h.protocolError
  · exact h.protocolError

theorem State.Heard.normalAck {b : FrameBody} (h : s.Heard k) (hmark : k.c.abortSent = false) :
    (State.normalAck b s k).consistent := by
  unfold State.normalAck
  split
  · next hwrite _ =>
    dsimp only
    split
    · exact h.toGoesOn.acknowledged hwrite hmark
    · exact h.protocolError
  · exact h.protocolError

theorem State.Heard.normalData {b : FrameBody} (h : s.Heard k) (hmark : k.c.abortSent = false) :
    (State.normalData b s k).consistent := by
  unfold State.normalData
  split
  · next hphase hread =>
    split
    · split
      · have hfilled : (s.fillReserved k b).1.Heard (s.fillReserved k b).2 ∧ (s.fillReserved k b).2.x.op = k.x.op ∧
            (s.fillReserved k b).2.c.abortSent = k.c.abortSent := by
          cases hres : s.stage.reserved with
          | nil =>
            simp only [State.fillReserved, hres]
            exact ⟨h, trivial, trivial⟩
          | cons p rest =>
            simp only [State.fillReserved, hres]
            refine ⟨⟨?_, h.turn⟩, trivial, trivial⟩
            have hstored : (s.withStage fun r => { r with reserved := rest, mem := Memory.fillPage r.mem p b.payload }).GoesOn k :=
              h.toGoesOn.of_same rfl rfl rfl rfl rfl
            exact hstored.same_phase rfl rfl rfl rfl rfl rfl
        obtain ⟨hheard, hop, hsent⟩ := hfilled
        exact hheard.afterData (hop.trans hread) (hsent.trans hmark)
      · exact h.protocolError
    · exact State.Heard.afterData ⟨h.toGoesOn.same_phase rfl rfl rfl rfl rfl rfl, h.turn⟩ hread hmark
  · exact h.protocolError

theorem State.Turned.takeRefuse {b : FrameBody} (h : s.Turned) : (s.takeRefuse b).consistent := by
  unfold State.takeRefuse
  split
  · next c k hop hk =>
    have hheard := h.heard hk
    split
    · next hmark =>
      unfold State.abortSentOther
      split
      · exact hheard.toGoesOn.abortRecovery hmark
      · next hturn => exact h.kept hturn
    · split
      · exact hheard.toGoesOn.finish _ _ _
      · exact hheard.abortAtTurn
      · exact hheard.normalRefuse
  · exact h.inOperation fun _ _ hk _ => hk.normalRefuse

theorem State.Turned.takeClose {b : FrameBody} (h : s.Turned) : (s.takeClose b).consistent := by
  have hcounted : (s.closeCounted b).Turned := by
    unfold State.closeCounted
    split
    · exact h.of_same rfl rfl rfl rfl rfl
    · exact h
  have hop' : (s.closeCounted b).link.op = s.link.op := State.closeCounted_op b
  have hslots : (s.closeCounted b).slots = s.slots := State.closeCounted_slots b
  rw [State.closeCounted] at hcounted hop' hslots
  unfold State.takeClose
  dsimp only
  split
  · next c hop =>
    split
    · next k hk =>
      have hheard := h.heard hk
      split
      · exact State.GoesOn.finish ⟨hcounted.placed, (State.carries_of_carried hk).of_same hslots hop', hheard.sound⟩ _ _ _
      · split
        · split
          · exact hheard.toGoesOn.finish _ _ _
          · exact hheard.protocolError
        · exact hheard.protocolError
    · next hnone =>
      obtain ⟨k, hk⟩ := h.placed.carried hop
      cases hnone.symm.trans hk
  · next n limit hop => exact hcounted.placed.endVisit (hop'.trans hop) _
  · next w hop =>
    obtain ⟨hphase, e, es, hw⟩ := h.cleaning hop
    simp only [hw]
    split
    · next hslot => exact (hcounted.placed.between_ended (hop'.trans hop) hphase hw hslot _).nextCleanup
    · next hslot => exact (h.placed.between_unbound hop hphase hw hslot).nextCleanup
  · next hexchange hvisit hpoll =>
    rcases h.operation with ⟨c, hop⟩ | ⟨n, limit, hop⟩ | ⟨w, hop⟩
    · exact absurd hop (hexchange c)
    · exact absurd hop (hvisit n limit)
    · exact absurd hop (hpoll w)

/-! ### REPLY -/

/-- A poll window listens, and all is in agreement. -/
structure State.Listens (s : State) : Prop where
  consistent : s.consistent
  listening : ∃ w, s.link.op = .poll w ∧ w.phase = .listening ∧ s.link.slotOpen w.left = true

theorem State.Listens.of_link (h : s.Listens) (hlink : t.link = s.link) (ht : t.consistent) : t.Listens :=
  ⟨ht, by rw [hlink]; exact h.listening⟩

theorem State.Listens.endReplySlot (h : s.Listens) : s.endReplySlot.consistent := by
  obtain ⟨w, hop, hphase, -⟩ := h.listening
  exact (h.consistent.between hop (by simp [hphase])).endReplySlot

theorem State.Listens.between (h : s.Listens) : s.Between := by
  obtain ⟨w, hop, hphase, -⟩ := h.listening
  exact h.consistent.between hop (by simp [hphase])

theorem State.enterCleanup_link (hop : s.link.op = .poll w) :
    (s.enterCleanup e).link = { s.link with op := .poll { w with cleanup := w.cleanup ++ [e] } } := by
  simp [State.enterCleanup, State.withLink, hop]

/-- An entry that names an ABORTING slot by its tag, or none, joins the cleanup list. -/
theorem State.Listens.enterCleanup (h : s.Listens) (he : ∀ n, e.slot = some n →
      ∃ x, s.slots[n] = some x ∧ x.station = e.station ∧ x.st.tag? = some e.tag ∧ x.st.isAborting = true) :
    (s.enterCleanup e).Listens := by
  obtain ⟨w, hop, hphase, hopen⟩ := h.listening
  have hlink := State.enterCleanup_link (e := e) hop
  have hplaced : (s.enterCleanup e).Placed := by
    intro m
    have hm := h.consistent.placed m
    have hop' : (s.enterCleanup e).link.op = .poll { w with cleanup := w.cleanup ++ [e] } := by rw [hlink]
    refine ⟨hm.lists, ?_, ?_, hm.tags, fun e' he' => ?_⟩
    · refine Eq.trans ?_ hm.conducts
      rw [hop, hop']
      rfl
    · refine Eq.trans ?_ hm.visits
      rw [h.between.free, hop']
      exact LinkOp.visits_of_listening (w := { w with cleanup := w.cleanup ++ [e] }) hphase m
    · rw [hop'] at he'
      obtain ⟨v, hv, hmem, hslot⟩ := he'
      obtain rfl := LinkOp.poll.inj hv
      rcases List.mem_append.mp hmem with hold | hnew
      · exact hm.cleanup e' ⟨w, hop, hold, hslot⟩
      · obtain rfl := List.mem_singleton.mp hnew
        exact he m hslot
  refine ⟨hplaced.consistent (State.turnFits_of_apart ?_), ⟨{ w with cleanup := w.cleanup ++ [e] }, ?_, hphase, ?_⟩⟩
  · rw [hlink]
    exact LinkEngine.apart_iff.mpr (.inr (.inr ⟨_, rfl, .inr ⟨hopen, hphase⟩⟩))
  · rw [hlink]
  · rw [hlink]
    exact hopen

theorem State.Listens.orphan (h : s.Listens) (a : StationNo) (g : Tag) : (s.orphan a g).Listens :=
  State.Listens.enterCleanup (s := s.linkFault .orphan) (e := { station := a, tag := g, slot := none })
    (h.of_link (by simp) (h.consistent.report _ _ _)) (by simp)

theorem State.Listens.judgeRecall (h : s.Listens) (a : StationNo) (g : Tag) (offset : Nat) :
    (s.judgeRecall a g offset).Listens := by
  unfold State.judgeRecall
  split
  · exact h.orphan a g
  · next n hbound =>
    split
    · exact h.orphan a g
    · next x hx =>
      split
      · next tag d hst =>
        have hoff : x.OffLink := ⟨by rw [hst]; rfl, by rw [hst]; rfl⟩
        split
        · exact h.of_link rfl (h.consistent.recalled hx hoff (by rw [hst]; rfl) (by rw [hst]; rfl) _)
        · exact h.of_link rfl (h.consistent.condemn hx hoff (by rw [hst]; rfl) (by rw [hst]; rfl) _)
      · next tag hst =>
        have hoff : x.OffLink := ⟨by rw [hst]; rfl, by rw [hst]; rfl⟩
        split
        · exact h.of_link rfl (h.consistent.recalled hx hoff (by rw [hst]; rfl) (by rw [hst]; rfl) _)
        · exact h
      · next tag p r hst =>
        refine h.enterCleanup fun m hm => ?_
        obtain rfl := Option.some.inj hm
        obtain ⟨y, hy, hstation, htag⟩ := ((h.consistent.placed n).tags a g).mp hbound
        obtain rfl := Option.some.inj (hx.symm.trans hy)
        exact ⟨x, hx, hstation, htag, by rw [hst]; rfl⟩
      · exact h.orphan a g

theorem State.Listens.takeRecall {r : Option (Byte × Nat)} (h : s.Listens) (a : StationNo) : (s.takeRecall a r).Listens := by
  unfold State.takeRecall
  split
  · split
    · exact h.judgeRecall _ _ _
    · exact h.of_link (by simp) (h.consistent.report _ _ _)
  · exact h

theorem State.Listens.takeAttention {b : Option Byte} (h : s.Listens) (a : StationNo) : (s.takeAttention a b).Listens := by
  unfold State.takeAttention
  split
  · exact h.of_link (by simp) ((h.consistent.report _ _ _).withStation _ rfl)
  · exact h

theorem State.Listens.replyInSlot {b : FrameBody} (h : s.Listens) (a : StationNo) : (s.replyInSlot b a).consistent := by
  unfold State.replyInSlot
  split
  · have hpresent : (s.withStation a fun st => { st with backoff := false }).Listens :=
      h.of_link rfl (h.consistent.withStation _ rfl)
    exact ((hpresent.takeRecall a).takeAttention a).endReplySlot
  · exact (h.of_link (t := s.linkFault .stray) (by simp) (h.consistent.report _ _ _)).endReplySlot

theorem State.Turned.turn_ne_replySlot (h : s.Turned) : s.link.turn ≠ .replySlot a := by
  obtain ⟨v, -, hturn | ⟨hheld, -⟩⟩ := h.service
  · simp [hturn]
  · simp [(LinkEngine.heldBy_iff.mp hheld).1]

theorem State.Turned.takeReply {b : FrameBody} (h : s.Turned) : (s.takeReply b).consistent := by
  unfold State.takeReply
  split
  · next hturn => exact absurd hturn h.turn_ne_replySlot
  · exact h.condemned

theorem State.consistent.listens (h : s.consistent) (hturn : s.link.turn = .replySlot a) : s.Listens :=
  ⟨h, State.turnFits_replySlot h.turn hturn⟩

theorem State.takeReply_of_slot {b : FrameBody} (hturn : s.link.turn = .replySlot a) : s.takeReply b = s.replyInSlot b a := by
  simp only [State.takeReply, hturn]

/-! ### At the receiver -/

theorem State.consistent.stationSeen (h : s.consistent) (a : StationNo) : (s.stationSeen a).consistent := by
  unfold State.stationSeen
  split
  · exact h.withStation _ rfl
  · exact (h.withStation _ rfl).report _ _ _
  · exact h.withStation _ rfl

theorem State.consistent.badFrame (h : s.consistent) (cause : LinkFault) : (s.badFrame cause).consistent := by
  have hplaced : (s.badFrame cause).Placed := h.placed.of_same (by simp) (by simp) (by simp) (by simp) (by simp)
  exact hplaced.consistent (State.turnFits_late (b := false) h.turn (by simp) (by simp) (by simp))

/-- A station frame is taken while its sender holds the turn. -/
theorem State.consistent.takeTurn (h : s.consistent) (hturn : s.link.turn = .station a) (f : Frame) : (s.takeTurn f).Turned := by
  obtain ⟨v, hv, hheld, hhears⟩ := State.turnFits_held h.turn (.inr ⟨a, hturn⟩)
  unfold State.takeTurn
  simp only [hturn]
  split
  · exact ⟨h.placed.of_same rfl rfl rfl rfl rfl, v, hv, .inl rfl⟩
  · obtain ⟨hstation, -, hnone, hlate⟩ := LinkEngine.heldBy_iff.mp hheld
    exact ⟨h.placed.of_same rfl rfl rfl rfl rfl, v, hv, .inr ⟨LinkEngine.heldBy_iff.mpr ⟨hstation, rfl, hnone, hlate⟩, hhears⟩⟩

/-- A frame is received: one that is accepted is taken in its operation, or is a REPLY in its reply slot. -/
theorem State.consistent.receive {together : Bool} {phase : State → State} (h : s.consistent)
    (hphase : ∀ u : State, u.Turned → (phase u).consistent)
    (hreply : f.kind = .reply → ∀ (u : State) a, u.consistent → u.link.turn = .replySlot a → (phase u).consistent) :
    (s.receive f together phase).consistent := by
  unfold State.receive
  split
  · exact h
  · split
    · exact h.badFrame _
    · split
      · next a haccept =>
        have hseen : (s.stationSeen a).consistent := h.stationSeen a
        have hlink : (s.stationSeen a).link = s.link := by simp
        refine State.consistent.choose ?_
        unfold State.acceptedFrom at haccept
        split at haccept
        · next b hturn => exact hphase _ (hseen.takeTurn (by rw [hlink]; exact hturn) f)
        · next b hturn =>
          split at haccept
          · next hslot =>
            have hkept : (s.stationSeen a).takeTurn f = s.stationSeen a := by
              unfold State.takeTurn
              simp only [hlink, hturn]
            rw [hkept]
            exact hreply hslot.2 _ b hseen (by rw [hlink]; exact hturn)
          · cases haccept
        · cases haccept
      · exact h.badFrame _

theorem State.consistent.receiveByKind {together : Bool} (h : s.consistent) : (s.receiveByKind f together).consistent := by
  refine h.receive (fun u hu => ?_) fun hkind u a hu hturn => ?_
  · split
    · exact hu.inOperation fun _ _ hk hmark => hk.normalAccept hmark
    · exact hu.takeRefuse
    · exact hu.inOperation fun _ _ hk _ => hk.normalDefer
    · exact hu.takeClose
    · exact hu.inOperation fun _ _ hk hmark => hk.normalAck hmark
    · exact hu.inOperation fun _ _ hk hmark => hk.normalData hmark
    · exact hu.takeReply
    all_goals exact hu.condemned
  · simp only [hkind]
    rw [State.takeReply_of_slot hturn]
    exact (hu.listens hturn).replyInSlot a

theorem State.consistent.receiveBytes {b : ReceivedBytes} (h : s.consistent) : (s.receiveBytes b).consistent := by
  unfold State.receiveBytes
  split
  · exact h
  · split
    · exact h
    · exact h.badFrame _
  · exact h.receiveByKind

end Sys2Proof.Machine
end

section
/-!
PROOF. The frames the head sends, the timers, the commands and the resets keep slots, lists, tags and the link in agreement.
-/
set_option Elab.async false

namespace Sys2Proof.Machine

variable {s t u : State} {n m : SlotNo} {x y z : Exchange} {a : StationNo} {o : Option Exchange} {g : Tag} {w w' : PollWindow}
  {op : LinkOp} {f : Frame} {k k' : Carried} {L : Shelf} {e : CleanupEntry} {es : List CleanupEntry} {c : Connection} {i : Instr}

/-! ### The frames the head sends -/

/-- Every frame but DATA may pass the turn. -/
theorem State.served_hears {v : Service} (hv : s.served = some v) (hsends : v.sends f.kind = true) (hdata : f.kind ≠ .data) :
    v.hears = true := by
  unfold State.served LinkOp.service at hv
  cases hop : s.link.op <;> simp only [hop, reduceCtorEq] at hv
  case exchange c =>
    obtain ⟨x, -, hsound⟩ := Option.bind_eq_some_iff.mp hv
    split at hsound
    · obtain rfl := Option.some.inj hsound
      simp only [Connection.service, bne_iff_ne] at hsends ⊢
      rintro hphase
      rw [hphase] at hsends
      exact hdata (by simpa [Phase.sends] using hsends)
    · cases hsound
  case abortVisit n limit =>
    obtain ⟨x, -, rfl⟩ := Option.map_eq_some_iff.mp hv
    rfl
  case poll w =>
    split at hv
    · obtain rfl := Option.some.inj hv
      rfl
    · cases hv

/-- The station served takes the turn. -/
theorem State.Placed.passTurn {v : Service} (h : s.Placed) (hv : s.served = some v) (hhears : v.hears = true) :
    (s.passTurn v.station).consistent := by
  have hplaced : (s.passTurn v.station).Placed := h.of_same rfl rfl rfl rfl rfl
  refine hplaced.consistent (State.turnFits_of_served (s := s.passTurn v.station) hv ?_)
  rw [LinkEngine.serves, Bool.or_eq_true, Bool.and_eq_true]
  exact .inr ⟨LinkEngine.heldBy_iff.mpr ⟨rfl, rfl, rfl, rfl⟩, hhears⟩

theorem State.consistent.passTo (h : s.consistent) (hf : s.link.sending = some f) (hparked : f.kind ≠ .parked)
    (hpoll : f.kind ≠ .poll) (hdata : f.kind ≠ .data) : (s.passTo f).consistent := by
  obtain ⟨v, hv, hsends, haddr⟩ := State.turnFits_sends h.turn hf hparked hpoll
  rw [State.passTo_eq haddr]
  exact h.placed.passTurn hv (State.served_hears hv hsends hdata)

theorem dataFrame_fits (mem : Memory) (k : Carried) (i : Nat) :
    (dataFrame mem k i).kind = .data ∧ (dataFrame mem k i).body.address = addressOf k.x.station := ⟨rfl, rfl⟩

theorem State.consistent.dataSent (h : s.consistent) (hf : s.link.sending = some f) (hkind : f.kind = .data) :
    (s.dataSent f).consistent := by
  obtain ⟨v, hv, hsends, haddr⟩ := State.turnFits_sends h.turn hf (by simp [hkind]) (by simp [hkind])
  unfold State.dataSent
  split
  · next k hk =>
    obtain ⟨hsound, rfl⟩ := State.served_carried hk hv
    have hphase : k.c.phase = .sending := by
      rw [hkind] at hsends
      revert hsends
      simp only [Connection.service]
      cases k.c.phase <;> simp [Phase.sends]
    have hmark : k.c.abortSent = false := by
      have hsame := (Bool.and_eq_true_iff.mp hsound).1
      rw [hphase, beq_iff_eq] at hsame
      exact hsame
    have hwrite : k.x.op = .write := by
      have := (Bool.and_eq_true_iff.mp hsound).2
      simpa [hphase, Phase.of] using this
    have hgoes : s.GoesOn { k with c := { k.c with nextSend := f.body.seq + 1 } } :=
      (h.placed.goesOn hv hk).same_phase rfl rfl rfl rfl rfl rfl
    dsimp only
    split
    · rw [State.passTo_eq (g := f) (a := k.x.station) haddr]
      have hawaits : s.GoesOn { k with c := { k.c with nextSend := f.body.seq + 1, phase := .awaiting } } :=
        hgoes.leads rfl rfl rfl rfl
          (Connection.sound_iff_of_unsent hmark (by simp) (by simp [Phase.of, hwrite]))
      have hpassed := hawaits.placed_carry.passTurn (State.served_carry hawaits.sound) rfl
      exact hpassed
    · split
      · exact hgoes.enterAbortPhase
      · obtain ⟨hdata, haddress⟩ := dataFrame_fits s.stage.mem { k with c := { k.c with nextSend := f.body.seq + 1 } }
          (f.body.seq + 1 - k.c.oldest).toNat
        refine State.GoesOn.carrySend hgoes ?_ haddress
        rw [hdata, hphase]
        rfl
  · exact h

theorem State.consistent.parkedDone (h : s.consistent) : (s.parkedDone f).consistent := by
  unfold State.parkedDone
  split
  · next hop =>
    have hended : s.endOp.Placed :=
      h.placed.of_agrees rfl fun m => State.agrees_endOp (by rw [hop]; rfl) (by rw [hop]; rfl)
    exact (hended.consistent (State.turnFits_of_apart rfl)).choose
  · exact h

theorem State.consistent.withArb (h : s.consistent) (r : Arbiter → Arbiter) (hr : ∀ L, (s.withArb r).shelf L = s.shelf L) :
    (s.withArb r).consistent := h.of_core rfl hr rfl fun _ => rfl

theorem State.consistent.pollDone (h : s.consistent) (hf : s.link.sending = some f) (hkind : f.kind = .poll) :
    (s.pollDone f).consistent := by
  unfold State.pollDone
  split
  · next w hop =>
    have hphase := State.turnFits_poll h.turn hop hf hkind
    have hcleared := h.withArb (fun r => { r with pollDue := false, pollRequested := false }) fun L => by cases L <;> rfl
    exact (hcleared.between hop (by simp [hphase])).openReplySlot hop fun _ => id
  · exact h

theorem State.consistent.sent {kind : FrameKind} {next : State → Frame → State} (h : s.consistent)
    (hnext : ∀ f, s.link.sending = some f → f.kind = kind → (next s f).consistent) : (s.sent kind next).consistent := by
  unfold State.sent
  split
  · next f hf =>
    split
    · next hkind => exact hnext f hf hkind
    · exact h
  · exact h

theorem State.consistent.sentPass {kind : FrameKind} (h : s.consistent) (hparked : kind ≠ .parked) (hpoll : kind ≠ .poll)
    (hdata : kind ≠ .data) : (s.sent kind State.passTo).consistent :=
  h.sent fun _ hf hkind => h.passTo hf (hkind ▸ hparked) (hkind ▸ hpoll) (hkind ▸ hdata)

/-! ### The timebase and the poll interval timer -/

theorem State.consistent.expire (h : s.consistent) (n : SlotNo) : (s.expire n).consistent := by
  unfold State.expire
  split
  · next x hx =>
    split
    · next g d hst =>
      exact h.condemn hx ⟨by rw [hst]; rfl, by rw [hst]; rfl⟩ (by rw [hst]; rfl) (by rw [hst]; rfl) _
    · exact h
  · exact h

theorem State.consistent.expireWhile (h : s.consistent) (l : List SlotNo) : (s.expireWhile l).consistent := by
  induction l generalizing s with
  | nil => exact h
  | cons n l ih =>
    unfold State.expireWhile
    split
    · exact ih (h.expire n)
    · exact h

theorem State.consistent.takeExpiries (h : s.consistent) : s.takeExpiries.consistent := (h.expireWhile _).choose

theorem State.consistent.pollTimerExpires (h : s.consistent) : s.pollTimerExpires.consistent :=
  h.withArb _ fun L => by cases L <;> rfl

theorem State.consistent.pollTick (h : s.consistent) : s.pollTick.consistent := by
  unfold State.pollTick
  split
  · exact h.pollTimerExpires.choose
  · exact h.withArb _ fun L => by cases L <;> rfl

theorem State.consistent.tick (h : s.consistent) : s.tick.consistent :=
  h.of_core rfl (fun L => by cases L <;> rfl) rfl fun _ => rfl

theorem State.consistent.useFree (h : s.consistent) : s.useFree.consistent := h.of_same rfl rfl rfl rfl rfl

theorem State.consistent.advance (h : s.consistent) : s.advance.consistent := by
  unfold State.advance
  split
  · split
    · exact h.tick.useFree.pollTick.takeExpiries
    · exact h.tick.useFree.takeExpiries.pollTick
  · split
    · exact h.tick.takeExpiries.pollTick
    · exact h.tick.pollTick

theorem State.consistent.expireHead (h : s.consistent) : s.expireHead.consistent := by
  unfold State.expireHead
  split
  · split
    · exact (h.expire _).choose
    · exact h
  · exact h

/-! ### The reply timer -/

theorem State.consistent.openLate (h : s.consistent) : s.openLate.consistent := by
  have hplaced : s.openLate.Placed := h.placed.of_same rfl rfl rfl rfl rfl
  exact hplaced.consistent (State.turnFits_late (b := s.link.sending.isSome) h.turn id rfl rfl)

theorem State.GoesOn.connectionTimeout (h : s.GoesOn k) (hphase : k.c.phase ≠ .sending) :
    (s.connectionTimeout k).consistent := by
  unfold State.connectionTimeout
  split
  · next hmark => exact h.abortRecovery hmark
  · next hmark =>
    have hmark : k.c.abortSent = false := by simpa using hmark
    obtain ⟨hunsent, hof⟩ := Connection.sound_of_unsent h.sound hmark
    split
    · exact h.enterAbortPhase
    · split
      · next hopening =>
        split
        · obtain ⟨hkind, haddr⟩ := openingFrame_fits k.c.resumed k.x k.tag
          exact State.GoesOn.carrySend (h.retried (k.retry + 1)) (by simp only [hopening]; exact hkind) haddr
        · exact h.finishMissed _ _
      · next hwrite => exact h.recover fun r => (h.retried r).startBurst hwrite hmark
      · next hread => exact h.recover fun r => (h.retried r).grantPoint hread hmark
      · next hclosing =>
        refine h.recover fun r => (h.retried r).sendClosingAck ?_ hmark
        rw [hclosing] at hof
        simpa [Phase.of] using hof
      · next hopening hclosing hwrite hread =>
        exfalso
        cases hp : k.c.phase with
        | opening => exact hopening hp
        | sending => exact hphase hp
        | awaiting =>
          rw [hp] at hof
          cases hop : k.x.op with
          | read => exact hread hp hop
          | write => exact hwrite hp hop
          | control => simp [Phase.of, hop] at hof
        | closing => exact hclosing hp
        | abortSent => exact hunsent hp

theorem State.Placed.cleanupTimeout (h : s.Placed) (hop : s.link.op = .poll w) (hphase : w.phase = .cleaning)
    (hw : w.cleanup = e :: es) : (s.cleanupTimeout w).consistent := by
  unfold State.cleanupTimeout
  simp only [hw]
  split
  · next hslot => exact ((h.between_ended hop hphase hw hslot none).miss _).nextCleanup
  · next hslot => exact ((h.between_unbound hop hphase hw hslot).miss _).nextCleanup

theorem State.consistent.replyTimeout (h : s.consistent) : s.replyTimeout.consistent := by
  unfold State.replyTimeout
  split
  · exact h
  · next v htimer =>
    obtain ⟨v, hv, hheld, hhears⟩ := State.turnFits_held h.turn (.inl (by simp [htimer]))
    have hback : (s.withLink fun l => { l with turn := .head, replyTimer := none }).Placed :=
      h.placed.of_same rfl rfl rfl rfl rfl
    have hserved : (s.withLink fun l => { l with turn := .head, replyTimer := none }).served = some v := hv
    dsimp only
    split
    · split
      · next k hk =>
        obtain ⟨-, rfl⟩ := State.served_carried hk hserved
        exact ((hback.goesOn hserved hk).connectionTimeout (by simpa [Connection.service] using hhears)).choose.openLate
      · exact h
    · next hop => exact (hback.visitRecovery hop).choose.openLate
    · next w hop =>
      obtain ⟨hphase, e, es, hw⟩ := State.served_poll hop hserved
      exact (hback.cleanupTimeout hop hphase hw).choose.openLate
    · exact h

theorem State.consistent.replySlotTimeout (h : s.consistent) : s.replySlotTimeout.consistent := by
  unfold State.replySlotTimeout
  split
  · next a hturn =>
    have hmissed : (s.miss a).Listens := (h.listens hturn).of_link (by simp) (h.miss a)
    exact hmissed.endReplySlot.choose.openLate
  · exact h

end Sys2Proof.Machine
end

section
/-!
PROOF. The commands, the resets and the register window keep slots, lists, tags and the link in agreement, so every row does.
-/
set_option Elab.async false

namespace Sys2Proof.Machine

variable {s t u : State} {n m : SlotNo} {x y z : Exchange} {a : StationNo} {o : Option Exchange} {g : Tag} {w w' : PollWindow}
  {op : LinkOp} {f : Frame} {k k' : Carried} {L : Shelf} {e : CleanupEntry} {es : List CleanupEntry} {c : Connection} {i : Instr}

/-! ### Slot commands -/

theorem State.consistent.resultChoose (h : s.consistent) (r : ResultCode) (v : Nat) : (s.result r v).choose.consistent :=
  (h.result r v).choose

/-- A slot that nothing refers to goes from FREE to a resting record, or back. -/
theorem State.consistent.of_resting (h : s.consistent) (hx : ∀ x, s.slots[n] = some x → x.Resting)
    (ho : ∀ y, o = some y → y.Resting) (hslots : t.slots = s.slots.set n o) (harb : t.arb = s.arb) (hpark : t.park = s.park)
    (hlink : t.link = s.link) (hstations : t.stations = s.stations) : t.consistent := by
  have hn : s.FitsAs n none := by
    have hn := h.placed n
    cases hs : s.slots[n] with
    | none => rwa [hs] at hn
    | some x => exact (hs ▸ hn : s.FitsAs n (some x)).forget (hx x hs)
  have ht : t.FitsAs n o := by
    have ht := (State.agrees_of_same harb hpark (by rw [hlink]) hstations n).fitsAs hn
    cases o with
    | none => exact ht
    | some y => exact ht.resting (ho y rfl)
  exact h.of_offLink (fun x hs => (hx x hs).offLink)
    (h.placed.of_set hslots (fun m _ => State.agrees_of_same harb hpark (by rw [hlink]) hstations m) ht) hslots (.inl hlink)

theorem State.consistent.claim (h : s.consistent) : s.claim.consistent := by
  unfold State.claim
  split
  · exact h.result _ _
  · next r _ =>
    split
    · exact h.result _ _
    · split
      · exact h.result _ _
      · next n hn =>
        split
        · exact h.result _ _
        · refine h.of_resting (n := n) (o := some (claimedExchange r (s.stage.free.take (pagesClaimed r)))) (fun x hx => ?_)
            (fun y hy => ?_) rfl rfl rfl rfl rfl
          · cases (State.lowestFree_none hn).symm.trans hx
          · obtain rfl := Option.some.inj hy
            exact Exchange.resting_prepared rfl

theorem State.consistent.issueSlot (h : s.consistent) (n : SlotNo) : (s.issueSlot n).consistent := by
  unfold State.issueSlot
  split
  · next x hx =>
    split
    · next hst =>
      split
      · exact h.result _ _
      · refine State.consistent.resultChoose ?_ _ _
        have hrest : x.Resting := Exchange.resting_prepared hst
        have hn : s.FitsAs n (some x) := hx ▸ h.placed n
        have hshift : x.Shifts { x with st := .queued } :=
          ⟨hrest.offLink, ⟨rfl, rfl⟩, rfl, hrest.tag.symm, fun hab => by rw [hrest.aborting] at hab; cases hab⟩
        have hshelf : ({ x with st := .queued } : Exchange).shelf = some (if x.urgent then .level1 else .level0) := by
          cases x.urgent <;> simp [Exchange.shelf]
        exact h.shift (u := s.setSlot n (some { x with st := .queued })) hx hshift hshelf
          (fun m _ => State.agrees_setSlot _ m) (fun K => hn.not_listed hrest.shelf K) rfl rfl
          (State.joins_joinIssue n x.urgent) rfl rfl rfl
    · exact h.result _ _
  · exact h.result _ _

/-- The pending status of a CONNECTED slot, and its retry count, are no matter of the lists, the tags and the link. -/
theorem Exchange.alike_connected {r r' : Nat} {p p' : Option Fatal} (hst : x.st = .connected g r p) :
    x.Alike { x with st := .connected g r' p' } := by
  constructor <;> simp [Exchange.shelf, hst, SlotState.onExchange, SlotState.onVisit, SlotState.tag?, SlotState.isAborting]

theorem State.consistent.repend {r : Nat} {p p' : Option Fatal} (h : s.consistent) (hx : s.slots[n] = some x)
    (hst : x.st = .connected g r p) : (s.setSlot n (some { x with st := .connected g r p' })).consistent :=
  h.of_alike hx (Exchange.alike_connected hst) rfl rfl rfl rfl rfl rfl

theorem State.consistent.abortSlot (h : s.consistent) (n : SlotNo) : (s.abortSlot n).consistent := by
  unfold State.abortSlot
  split
  · next x hx =>
    split
    · next hst => exact (h.enterDone hx ⟨by rw [hst]; rfl, by rw [hst]; rfl⟩ _ _ _).resultChoose _ _
    · next hst =>
      exact (h.condemn hx ⟨by rw [hst]; rfl, by rw [hst]; rfl⟩ (by rw [hst]; rfl) (by rw [hst]; rfl) _).resultChoose _ _
    · next hst =>
      exact (h.condemn hx ⟨by rw [hst]; rfl, by rw [hst]; rfl⟩ (by rw [hst]; rfl) (by rw [hst]; rfl) _).resultChoose _ _
    · next hst =>
      exact (h.condemn hx ⟨by rw [hst]; rfl, by rw [hst]; rfl⟩ (by rw [hst]; rfl) (by rw [hst]; rfl) _).resultChoose _ _
    · exact h.result _ _
    · next hst => exact (h.repend hx hst).result _ _
    · exact h.result _ _
    · exact h.result _ _
    · exact h.result _ _
  · exact h.result _ _

theorem State.consistent.freeSlot (h : s.consistent) (hx : s.slots[n] = some x) (hrest : x.Resting) :
    (s.freeSlot n x).consistent :=
  h.of_resting (n := n) (o := none) (fun y hy => Option.some.inj (hx.symm.trans hy) ▸ hrest) (fun y hy => by cases hy) rfl rfl
    rfl rfl rfl

theorem State.consistent.releaseSlot (h : s.consistent) (n : SlotNo) : (s.releaseSlot n).consistent := by
  unfold State.releaseSlot
  split
  · next x hx =>
    split
    · next hst => exact (h.freeSlot hx (Exchange.resting_prepared hst)).resultChoose _ _
    · next hst =>
      split
      · exact h.result _ _
      · exact (h.freeSlot hx (Exchange.resting_done (by rw [hst]; rfl))).resultChoose _ _
    · exact h.result _ _
  · exact h.result _ _

/-! ### Station commands -/

theorem State.consistent.loseSlot (h : s.consistent) (a : StationNo) (n : SlotNo) : (s.loseSlot a n).consistent := by
  unfold State.loseSlot
  split
  · next x hx =>
    split
    · split
      case h_6 hst => exact h.repend hx hst
      case h_7 => exact h
      all_goals
        next hst => exact h.enterDone hx ⟨by rw [hst]; rfl, by rw [hst]; rfl⟩ _ _ _
    · exact h
  · exact h

theorem State.consistent.foldl {next : State → SlotNo → State} (hnext : ∀ (s : State) n, s.consistent → (next s n).consistent)
    (l : List SlotNo) (h : s.consistent) : (l.foldl next s).consistent := by
  induction l generalizing s with
  | nil => exact h
  | cons n l ih => exact ih (hnext s n h)

theorem State.consistent.stationOff (h : s.consistent) (a : StationNo) : (s.stationOff a).consistent := by
  unfold State.stationOff
  split
  · exact h.result _ _
  · exact (State.consistent.foldl (fun _ n hs => hs.loseSlot a n) _ (h.withStation _ rfl)).result _ _

theorem State.consistent.stationOn (h : s.consistent) (a : StationNo) : (s.stationOn a).consistent := by
  unfold State.stationOn
  split
  · exact (h.withStation _ rfl).resultChoose _ _
  · exact h.result _ _

theorem State.consistent.stationConfig (h : s.consistent) (a : StationNo) : (s.stationConfig a).consistent := by
  unfold State.stationConfig
  split
  · split
    · exact (h.withStation _ rfl).result _ _
    · exact h.result _ _
  · exact h.result _ _

theorem State.consistent.pollNow (h : s.consistent) : s.pollNow.consistent :=
  (h.withArb (fun r => { r with pollRequested := true }) fun L => by cases L <;> rfl).resultChoose _ _

theorem State.consistent.onSlot {next : SlotNo → State} (h : s.consistent) (hnext : ∀ n, (next n).consistent) :
    (s.onSlot next).consistent := by
  unfold State.onSlot
  split
  · exact hnext _
  · exact h.result _ _

theorem State.consistent.onStation {next : StationNo → State} (h : s.consistent) (hnext : ∀ a, (next a).consistent) :
    (s.onStation next).consistent := by
  unfold State.onStation
  split
  · exact hnext _
  · exact h.result _ _

/-! ### Resets -/

/-- A slot that holds no tag is off the link, and no cleanup entry is bound to it. -/
theorem SlotState.of_no_tag {st : SlotState} (h : st.tag? = none) :
    st.onExchange = false ∧ st.onVisit = false ∧ st.isAborting = false := by
  cases st <;> simp_all [SlotState.tag?, SlotState.onExchange, SlotState.onVisit, SlotState.isAborting]

/-- All is empty, and the link runs no operation on a slot. -/
theorem State.consistent_of_empty (hslots : ∀ n : SlotNo, s.slots[n] = none) (hshelf : ∀ L, s.shelf L = [])
    (hop : s.link.op.Alone) (htags : ∀ (a : StationNo) (g : Tag), s.stations[a].tagMap[g] = none)
    (hturn : s.link.apart = true) : s.consistent := by
  refine State.Placed.consistent (fun n => ?_) (State.turnFits_of_apart hturn)
  rw [hslots]
  exact State.fitsAs_none (fun L => by rw [hshelf]; rfl) (hop.conducts n) (hop.visits n)
    (fun a g => by rw [htags]; simp) (hop.binds n)

theorem State.softReset_consistent : s.softReset.consistent := by
  refine State.consistent_of_empty State.softReset_slot (fun L => by cases L <;> rfl) LinkOp.alone_resetBreak
    (fun a g => ?_) rfl
  have hst : s.softReset.stations[a] = s.stations[a].atSoftReset := Vector.getElem_map _ _
  rw [hst]
  exact Vector.getElem_replicate g.isLt

theorem State.hardwareReset_consistent (held : Bool) (strap : BitVec 2) (hop : op.Alone) (hrests : op.rests = true) :
    (s.hardwareReset held strap op).consistent := by
  refine State.consistent_of_empty (fun n => Vector.getElem_replicate n.isLt) (fun L => by cases L <;> rfl) hop
    (fun a g => ?_) (LinkEngine.apart_iff.mpr (.inl ⟨rfl, hrests⟩))
  have hst : (s.hardwareReset held strap op).stations[a] = Station.atReset := Vector.getElem_replicate a.isLt
  rw [hst]
  exact Vector.getElem_replicate g.isLt

/-- Whether a link reset ends a slot. -/
theorem State.endsIn_resetFinal (n : SlotNo) :
    s.endsIn resetFinal (List.finRange 32) n = s.slots[n].any (·.st.tag?.isSome) := by
  simp only [State.endsIn, List.contains_eq_mem, List.mem_finRange, decide_true, Bool.true_and, State.endOf]
  cases s.slots[n] with
  | none => rfl
  | some x =>
    simp only [Option.bind_some, resetFinal, Option.any_some]
    cases x.st.tag? <;> rfl

theorem Walked.shelf_count {fin : Exchange → Option FinalStatus} {alt : Exchange → Exchange} {l : List SlotNo}
    (h : Walked fin alt s l t) (n : SlotNo) (L : Shelf) :
    (t.shelf L).count n = if s.endsIn fin l n then 0 else (s.shelf L).count n := by
  have hfilter (r : List SlotNo) : (r.filter (!s.endsIn fin l ·)).count n = if s.endsIn fin l n then 0 else r.count n := by
    split
    · next hends => exact List.count_eq_zero.mpr (by simp [hends])
    · next hends => exact List.count_filter (by simpa using hends)
  cases L <;> simp only [State.shelf, h.arb, h.park, Arbiter.withoutAll] <;> exact hfilter _

theorem State.consistent.beginLinkReset (h : s.consistent) : s.beginLinkReset.consistent := by
  obtain ⟨t, hwalk, heq⟩ := s.beginLinkReset_eq
  have hlink : t.link = breakLink := hwalk.link
  have hcount (n : SlotNo) (L : Shelf) : (s.beginLinkReset.shelf L).count n =
      if s.slots[n].any (·.st.tag?.isSome) then 0 else (s.shelf L).count n := by
    rw [heq, ← State.endsIn_resetFinal]
    exact hwalk.shelf_count n L
  have htags (a : StationNo) (g : Tag) : s.beginLinkReset.stations[a].tagMap[g] = none := by
    have hst : (t.stations.map Station.atLinkReset)[a] = t.stations[a].atLinkReset := Vector.getElem_map _ _
    rw [heq]
    refine (congrArg (fun st : Station => st.tagMap[g]) hst).trans ?_
    exact Vector.getElem_replicate g.isLt
  have hslots (n : SlotNo) : s.beginLinkReset.slots[n] = s.slots[n].map (afterWalk resetFinal id) := by
    rw [heq]
    refine (hwalk.slots n).trans ?_
    rw [if_pos (List.mem_finRange n)]
    rfl
  have hop : s.beginLinkReset.link = breakLink := by rw [heq]; exact hlink
  refine State.Placed.consistent (fun n => ?_) (State.turnFits_of_apart (by rw [hop]; rfl))
  have hn := h.placed n
  have hempty (hlists : ∀ L, (s.beginLinkReset.shelf L).count n = 0) : s.beginLinkReset.FitsAs n none :=
    State.fitsAs_none hlists (by rw [hop]; rfl) (by rw [hop]; rfl) (fun a g => by rw [htags]; simp)
      fun e => by rw [hop]; exact LinkOp.alone_resetBreak.binds n e
  rw [hslots]
  cases hx : s.slots[n] with
  | none =>
    rw [hx] at hn
    exact hempty fun L => by rw [hcount, hx]; exact hn.lists L
  | some x =>
    rw [hx] at hn
    cases htag : x.st.tag? with
    | some g =>
      have hafter : afterWalk resetFinal id x = { x with st := .done .linkReset none true [] } := by
        simp [afterWalk, resetFinal, htag]
      rw [Option.map_some, hafter]
      exact (hempty fun L => by rw [hcount, hx, Option.any_some, htag]; rfl).resting (Exchange.resting_done rfl)
    | none =>
      have hafter : afterWalk resetFinal id x = x := by simp [afterWalk, resetFinal, htag]
      obtain ⟨hexchange, hvisit, habort⟩ := SlotState.of_no_tag htag
      rw [Option.map_some, hafter]
      refine ⟨fun L => ?_, ?_, ?_, fun a g => ?_, fun e he => ?_⟩
      · rw [hcount, hx, Option.any_some, htag]
        exact hn.lists L
      · rw [hop, Option.any_some, hexchange]
        rfl
      · rw [hop, Option.any_some, hvisit]
        rfl
      · rw [htags]
        simp [htag]
      · rw [hop] at he
        exact absurd he (LinkOp.alone_resetBreak.binds n e)

theorem State.consistent.linkReset (h : s.consistent) : s.linkReset.consistent := by
  unfold State.linkReset
  split
  · exact h.result _ _
  · exact h.beginLinkReset.result _ _

/-- An operation on no slot gives way to another. -/
theorem State.Placed.replace (h : s.Placed) (hs : s.link.op.Alone) (ht : t.link.op.Alone) (hslots : t.slots = s.slots)
    (harb : t.arb = s.arb) (hpark : t.park = s.park) (hstations : t.stations = s.stations) : t.Placed :=
  h.of_agrees hslots fun m => ⟨fun L => by rw [State.shelf_congr harb hpark], by rw [hs.conducts, ht.conducts],
    by rw [hs.visits, ht.visits], fun a g => by rw [hstations], fun e he => absurd he (ht.binds m e)⟩

theorem State.consistent.breakEnds (h : s.consistent) : s.breakEnds.consistent := by
  unfold State.breakEnds
  split
  · next hop =>
    have hs : s.link.op.Alone := hop ▸ LinkOp.alone_resetBreak
    have hplaced : (s.setOp .resetQuiet).Placed := h.placed.replace hs LinkOp.alone_resetQuiet rfl rfl rfl rfl
    have hquiet : s.link.quiet = true := by
      have hturn := h.turn
      rw [State.turnFits, hop] at hturn
      exact hturn
    exact hplaced.consistent (State.turnFits_of_apart (LinkEngine.apart_iff.mpr (.inl ⟨hquiet, rfl⟩)))
  · exact h

theorem State.consistent.linkResetEnds (h : s.consistent) : s.linkResetEnds.consistent := by
  unfold State.linkResetEnds
  split
  · next hop =>
    have hs : s.link.op.Alone := hop ▸ LinkOp.alone_resetQuiet
    have hplaced : s.endOp.Placed := h.placed.replace hs LinkOp.alone_idle rfl rfl rfl rfl
    exact ((hplaced.consistent (State.turnFits_of_apart rfl)).report _ _ _).choose
  · exact h

theorem State.consistent.command (h : s.consistent) (code : Byte) : (s.command code).consistent := by
  unfold State.command
  split
  · exact h.claim
  · exact h.onSlot h.issueSlot
  · exact h.onSlot h.abortSlot
  · exact h.onSlot h.releaseSlot
  · exact h.onStation h.stationOn
  · exact h.onStation h.stationOff
  · exact h.onStation h.stationConfig
  · exact h.linkReset
  · exact h.pollNow
  · exact State.softReset_consistent
  · exact h.result _ _

/-! ### The window -/

theorem State.consistent.withHost (h : s.consistent) (r : HostPort → HostPort) : (s.withHost r).consistent :=
  h.of_same rfl rfl rfl rfl rfl

theorem State.consistent.misuse (h : s.consistent) (cause : StageFault) : (s.misuse cause).consistent := h.withHost _

theorem State.consistent.controlWrite (h : s.consistent) (v : Word) : (s.controlWrite v).consistent := by
  unfold State.controlWrite
  split
  · exact (h.withHost _).choose
  · exact h.withHost _

theorem State.consistent.hostFaultWrite (h : s.consistent) (v : Word) : (s.hostFaultWrite v).consistent := by
  unfold State.hostFaultWrite
  split
  · exact h.withHost _
  · exact h

theorem State.consistent.stageSlotWrite (h : s.consistent) (v : Word) : (s.stageSlotWrite v).consistent := by
  unfold State.stageSlotWrite
  split
  · exact h.withHost _
  · exact h.misuse _

theorem State.consistent.stageOffsetWrite (h : s.consistent) (v : Word) : (s.stageOffsetWrite v).consistent := by
  unfold State.stageOffsetWrite
  dsimp only
  split
  · exact (h.withHost _).misuse _
  · exact h.withHost _

theorem State.consistent.storeWord {d : Nat} {v : Word} (h : s.consistent) (hx : s.slots[n] = some x) :
    (s.storeWord n x d v).consistent := by
  unfold State.storeWord
  split
  · exact h.of_alike (y := { x with params := putParams x.params d x.count v }) hx ⟨rfl, rfl, rfl, rfl, rfl, rfl⟩ rfl rfl rfl
      rfl rfl rfl
  · exact h.of_same rfl rfl rfl rfl rfl

theorem State.consistent.stageDataWrite (h : s.consistent) (v : Word) : (s.stageDataWrite v).consistent := by
  unfold State.stageDataWrite
  split
  · exact h.misuse _
  · next x hx =>
    split
    · split
      · exact (h.storeWord hx).withHost _
      · exact h.misuse _
    · exact h.misuse _

theorem State.consistent.stageDataRead (h : s.consistent) : s.stageDataRead.2.consistent := by
  unfold State.stageDataRead
  split
  · exact h.misuse _
  · split
    · exact h.misuse _
    · split
      · exact h.withHost _
      · exact h.misuse _

theorem Exchange.alike_seen (x : Exchange) : x.Alike x.seen ∧ x.seen.op = x.op := by
  unfold Exchange.seen
  split
  · next hst =>
    refine ⟨?_, rfl⟩
    constructor <;> simp [Exchange.shelf, hst, SlotState.onExchange, SlotState.onVisit, SlotState.tag?, SlotState.isAborting]
  · exact ⟨⟨rfl, rfl, rfl, rfl, rfl, rfl⟩, rfl⟩

theorem State.consistent.clearSource (h : s.consistent) (src : Source) : (s.clearSource src).consistent := by
  unfold State.clearSource
  split
  · next n =>
    cases hx : s.slots[n] with
    | none =>
      have hsame : s.slots.set n none = s.slots := by
        rw [← hx]
        exact Vector.set_get s.slots n
      exact h.of_same hsame rfl rfl rfl rfl
    | some x =>
      obtain ⟨halike, hop⟩ := x.alike_seen
      exact h.of_alike hx halike hop rfl rfl rfl rfl rfl
  · exact h.withStation _ rfl
  · exact h

theorem State.consistent.eventPop (h : s.consistent) : s.eventPop.consistent := by
  unfold State.eventPop
  split
  · next r rest _ =>
    have hpopped : (s.withEvents fun _ => { records := rest, snapshot := none }).consistent := h.of_same rfl rfl rfl rfl rfl
    exact hpopped.clearSource _
  · exact h.of_same rfl rfl rfl rfl rfl

theorem State.consistent.registerWrite (h : s.consistent) (offset : BitVec 7) (v : Word) :
    (s.registerWrite offset v).consistent := by
  unfold State.registerWrite
  split
  · exact h.controlWrite v
  · exact h.withHost _
  · exact h.withHost _
  · exact h.withHost _
  · exact h.hostFaultWrite v
  · exact h.command _
  · exact h.withHost _
  · exact h.withHost _
  · exact h.withHost _
  · exact h.withHost _
  · exact h.withHost _
  · exact h.withHost _
  · exact h.stageSlotWrite v
  · exact h.stageOffsetWrite v
  · exact h.stageDataWrite v
  · exact h.eventPop
  · exact h

/-! ### Every row (O56) -/

theorem State.consistent.taken {r : State → State} (h : s.consistent) (hr : (r s).consistent) : (s.taken r).consistent := by
  unfold State.taken
  split
  · exact h
  · exact hr

theorem State.consistent.hostRead {r : State → Word × State} (h : s.consistent) (hr : (r s).2.consistent) :
    (s.hostRead r).consistent := by
  unfold State.hostRead
  split
  · exact h.withHost _
  · exact hr.withHost _

/-- A station frame of a kind that is not REPLY. -/
theorem State.consistent.hears {together : Bool} {phase : State → State} (h : s.consistent) (hkind : f.kind ≠ .reply)
    (hphase : ∀ u : State, u.Turned → (phase u).consistent) : (s.taken (·.receive f together phase)).consistent :=
  h.taken (h.receive hphase fun e => absurd e hkind)

theorem exec_consistent (h : exec i s = .next t) (hs : s.consistent) : t.consistent := by
  cases i <;> obtain rfl := Host.Outcome.next.inj h
  case claim => exact hs.taken hs.claim
  case issue => exact hs.taken (hs.onSlot hs.issueSlot)
  case abort => exact hs.taken (hs.onSlot hs.abortSlot)
  case release => exact hs.taken (hs.onSlot hs.releaseSlot)
  case stationOn => exact hs.taken (hs.onStation hs.stationOn)
  case stationOff => exact hs.taken (hs.onStation hs.stationOff)
  case stationConfig => exact hs.taken (hs.onStation hs.stationConfig)
  case linkReset => exact hs.taken hs.linkReset
  case pollNow => exact hs.taken hs.pollNow
  case softReset => exact hs.taken State.softReset_consistent
  case unknownCommandCode code => exact hs.taken (hs.command code)
  case linkEnableWrite v => exact hs.taken (hs.controlWrite v)
  case pollAlwaysWrite v => exact hs.taken (hs.controlWrite v)
  case linkConfigWrite second v => exact hs.taken (hs.withHost _)
  case intEnableWrite v => exact hs.taken (hs.withHost _)
  case hostFaultClear v => exact hs.taken (hs.hostFaultWrite v)
  case stageSlotWrite v => exact hs.taken (hs.stageSlotWrite v)
  case stageOffsetWrite v => exact hs.taken (hs.stageOffsetWrite v)
  case stageDataRead => exact hs.hostRead hs.stageDataRead
  case stageDataWrite v => exact hs.taken (hs.stageDataWrite v)
  case event0Read => exact hs.hostRead (hs.of_same rfl rfl rfl rfl rfl)
  case eventPop v => exact hs.taken hs.eventPop
  case slotSelectWrite v => exact hs.taken (hs.withHost _)
  case slotView0Read => exact hs.hostRead (hs.withHost _)
  case stationSelectWrite v => exact hs.taken (hs.withHost _)
  case stationView0Read => exact hs.hostRead (hs.withHost _)
  case timebaseLoRead => exact hs.hostRead (hs.withHost _)
  case registerWrite offset v => exact hs.taken (hs.registerWrite offset v)
  case resetAssert => exact State.hardwareReset_consistent _ _ LinkOp.alone_idle rfl
  case resetRelease strap => exact State.hardwareReset_consistent _ _ LinkOp.alone_resetBreak rfl
  case timebaseAdvance => exact hs.taken hs.advance
  case deadlineExpiry => exact hs.taken hs.expireHead
  case pollIntervalExpiry => exact hs.taken hs.pollTimerExpires.choose
  case replyTimerExpiry => exact hs.taken hs.replyTimeout
  case replySlotTimeout => exact hs.taken hs.replySlotTimeout
  case linkResetBreakEnd => exact hs.taken hs.breakEnds
  case linkResetEnd => exact hs.taken hs.linkResetEnds
  case frameDamaged bytes => exact hs.taken hs.receiveBytes
  case acceptReceived f =>
    exact hs.hears (by simp) fun _ hu => hu.inOperation fun _ _ hk hmark => hk.normalAccept hmark
  case refuseReceived f => exact hs.hears (by simp) fun _ hu => hu.takeRefuse
  case deferReceived f => exact hs.hears (by simp) fun _ hu => hu.inOperation fun _ _ hk _ => hk.normalDefer
  case closeReceived f => exact hs.hears (by simp) fun _ hu => hu.takeClose
  case ackReceived f => exact hs.hears (by simp) fun _ hu => hu.inOperation fun _ _ hk hmark => hk.normalAck hmark
  case dataReceived f => exact hs.hears (by simp) fun _ hu => hu.inOperation fun _ _ hk hmark => hk.normalData hmark
  case replyReceived f =>
    refine hs.taken (hs.receive (fun _ hu => hu.takeReply) fun _ u a hu hturn => ?_)
    rw [State.takeReply_of_slot hturn]
    exact (hu.listens hturn).replyInSlot a
  case headOnlyKindReceived kind f => exact hs.hears (by cases kind <;> simp [HeadOnlyKind.kind]) fun _ hu => hu.condemned
  case callSent => exact hs.taken (hs.sentPass (by simp) (by simp) (by simp))
  case resumeSent => exact hs.taken (hs.sentPass (by simp) (by simp) (by simp))
  case dataFrameSent => exact hs.taken (hs.sent fun _ hf hkind => hs.dataSent hf hkind)
  case ackFrameSent => exact hs.taken (hs.sentPass (by simp) (by simp) (by simp))
  case abortFrameSent => exact hs.taken (hs.sentPass (by simp) (by simp) (by simp))
  case parkedSent => exact hs.taken (hs.sent fun _ _ _ => hs.parkedDone)
  case pollSent => exact hs.taken (hs.sent fun _ hf hkind => hs.pollDone hf hkind)

/-- Settles O56, row by row, from the invariant slot by slot. -/
theorem slotsListsTagsAndLinkAgree : Obligations.SlotsListsTagsAndLinkAgree := by
  intro s t hs hstep
  unfold step at hstep
  split at hstep
  · obtain rfl := Host.Outcome.next.inj hstep
    exact hs
  · exact exec_consistent hstep (hs.of_same rfl rfl rfl rfl rfl)

end Sys2Proof.Machine
end
